-- ==== Sys2Proof/Word.lean ====
section
/-! DEFINITION. The words of the integer extract engine (00_scope.md R6, R8, R9). Bit 0 is the least significant bit of
every word. -/

namespace Sys2Proof

/-- A byte of buffer memory (R10). -/
abbrev Byte := BitVec 8

/-- The control word REQ_CTRL (R28, R71). -/
abbrev CtrlWord := BitVec 16

/-- The bit offset REQ_OFFSET (R27). -/
abbrev Offset := BitVec 64

/-- A 64-bit result pattern, RSP_VALUE (R32). -/
abbrev Value := BitVec 64

end Sys2Proof
end

