-- ==== Sys2Proof/Config.lean ====
section
/-! DEFINITION. What one implementation fixes and what the spec leaves open (00_scope.md R7, 93_implementation_defined.md).
The opaque constants have no body: no proof can see a value of theirs. -/

namespace Sys2Proof.Config

/-- The parameters of one machine (R7): both are at least 1. They are carried in the state, so that a statement about every
state is a statement about every ADDR_W and every PIPE_DEPTH (log 1, log 2). -/
structure Params where
  /-- `ADDR_W`: width in bits of an address and of a byte length. -/
  addrW : Nat
  /-- `PIPE_DEPTH`: how many requests may be accepted and not yet answered. -/
  pipeDepth : Nat
deriving DecidableEq, Repr

/-- Open: PIPE_DEPTH less one (R7, D16, I9; log 2). -/
opaque pipeDepthPred : Nat

/-- The parameters after reset: the spec's default ADDR_W (R7, D10) and an open PIPE_DEPTH of at least 1. -/
def params : Params := { addrW := 64, pipeDepth := pipeDepthPred + 1 }

/-- Open: `GENERIC_DECODE(bits, n, LE)` (R7, R157, D14, I1; log 3). The first argument is the range's bits in stream order,
the pattern is the low `n` bits of the result. By R155 it takes nothing else. -/
opaque genericDecode : (bits : List Bool) → (n : Nat) → (le : Bool) → BitVec 64

/-- Open: which of the four outcomes R66 allows answers the `k`-th request whose bytes were written in flight
(I5; log 13). -/
opaque disturbedCause : (k : Nat) → BitVec 2

/-- Open: the bits from which that response's value is taken (R66, I5; log 13). -/
opaque disturbedValue : (k : Nat) → Value

/-- Open: what lane `lane` of `MEM_RSP_DATA` holds after an answer that gives it no byte, to a read of `nbytes` bytes at `addr`
(R37; log 15). -/
opaque idleLane : (addr nbytes lane : Nat) → Byte

/-- Open: what `GEN_RSP_VALUE` holds when an attached unit answers absence to this request (R36; log 33). -/
opaque absentValue : (ptr : Nat) → (subOff : BitVec 3) → (width : BitVec 7) → (le sgn : Bool) → (avail : Nat) → Value

/-- The generic decoder attached to the port (R7, R157, R194): the one that meets laws L1 to L4 and is otherwise open, or the
spec's reference instance `GenericRef`. -/
inductive GenericUnit where
  | conforming
  | reference
deriving DecidableEq, Repr

end Sys2Proof.Config
end

