-- ==== Sys2Proof/Syntax.lean ====
section
/-! DEFINITION. The requests (30_encoding.md R70), the fifteen instructions of spec/opcode_table.json (R75) and the lines of the
assembler (R80, R81). -/

namespace Sys2Proof

/-- A request, format `REQ` (R70): the four fields of the request port, and of an entry of the in-flight queue (R40). `base` and
`len` are ADDR_W-bit numbers; ADDR_W is a parameter, so they are held as naturals below `2^ADDR_W`. -/
structure Request where
  base   : Nat
  len    : Nat
  offset : Offset
  ctrl   : CtrlWord
deriving DecidableEq, Repr

/-- What a legal control word selects (R74, R75). The operands BASE, LEN and OFFSET are not part of it: decoding reads only
CTRL, and an instruction finds its operands in the head of the queue (R12; log 27). `EXT8U` and `EXT8S` keep the LE bit of
their word, which they ignore (R77). -/
inductive Instr where
  | ext8u (le : Bool)
  | ext8s (le : Bool)
  | ext16ub
  | ext16ul
  | ext16sb
  | ext16sl
  | ext32ub
  | ext32ul
  | ext32sb
  | ext32sl
  | ext64ub
  | ext64ul
  | ext64sb
  | ext64sl
  | extg (w : BitVec 7) (sgn le : Bool)
deriving DecidableEq, Repr

/-- One line of the assembler (R80), or the pseudo-instruction `EXT` (R81), as abstract syntax (log 28). Flags are written
as the bits they encode: `sgn` for `S`, `le` for `L`. -/
inductive AsmLine where
  /-- `<mnemonic> (base, len), off`, for the fourteen fast-path mnemonics. -/
  | fast (mnemonic : String) (base len off : Nat)
  /-- `EXTG w, U|S, B|L, (base, len), off`. -/
  | extg (w : Nat) (sgn le : Bool) (base len off : Nat)
  /-- The pseudo-instruction `EXT w, U|S, B|L, (base, len), off`. -/
  | ext (w : Nat) (sgn le : Bool) (base len off : Nat)
deriving DecidableEq, Repr

end Sys2Proof
end

