-- ==== Sys2Proof/Machine/State.lean ====
section
/-! DEFINITION. The machine's state: the four ports, the in-flight queue, the buffer memory and what the outside does next
(10_state.md R20 to R41, 70_reset_and_hazards.md R190). Plain data. -/

namespace Sys2Proof.Machine

/-- Why the machine stops. -/
inductive Fault where
  /-- Raised when the response being delivered carries the reserved cause 7, "never produced; a model that sees it has gone
  wrong" (I12, R33). Safe: no reachable state has such a response (log 21). -/
  | reservedCause
deriving DecidableEq, Repr

/-- Why an instruction has no meaning. -/
inductive Refusal where
  /-- Raised by `exec` for an instruction without a meaning. Safe. Every instruction has one, so nothing raises it. -/
  | notModelled (mnemonic : String)
deriving DecidableEq, Repr

/-- The causes of a failure response (R33, R171). -/
inductive Cause where
  | bounds
  | unaligned
  | sign64
  | genericFail
  | illegal
  | busError
deriving DecidableEq, Repr

/-- A response (R11): a value with its tag, or a failure. -/
inductive Response where
  | ok (value : Value) (signed : Bool)
  | fail (cause : Cause)
deriving DecidableEq, Repr

/-- The four response registers RSP_OK, RSP_SIGNED, RSP_VALUE and RSP_CAUSE (R30 to R33). -/
structure RspData where
  ok     : Bool
  signed : Bool
  value  : Value
  cause  : BitVec 3
deriving DecidableEq, Repr

/-- The request port (R25 to R29): `valid` and `fields` are driven by the requester, `ready` by the engine. -/
structure ReqPort where
  valid  : Bool
  ready  : Bool
  fields : Request
deriving DecidableEq, Repr

/-- The response port (R29 to R33): `valid` and `data` are driven by the engine, `ready` by the requester. -/
structure RspPort where
  valid : Bool
  ready : Bool
  data  : RspData
deriving DecidableEq, Repr

/-- An entry of the in-flight queue `Q` (R40): the latched request, and the model's own mark that a byte the request reads was
written since its acceptance (R66; log 13). -/
structure Entry where
  req       : Request
  disturbed : Bool
deriving DecidableEq, Repr

/-- The memory read channel (R37) and what is outstanding on it. -/
structure MemPort where
  /-- `mem_req_valid`. -/
  reqValid : Bool
  /-- `mem_req_ready`, driven by the buffer memory. -/
  reqReady : Bool
  /-- `MEM_ADDR`. -/
  addr     : Nat
  /-- `MEM_NBYTES`. -/
  nbytes   : BitVec 4
  /-- `mem_rsp_valid`, driven by the buffer memory. -/
  rspValid : Bool
  /-- `MEM_RSP_DATA`: eight byte lanes; lane `i` is element `i` (log 15). -/
  rspData  : Vector Byte 8
  /-- `MEM_RSP_ERR`. -/
  rspErr   : Bool
  /-- A read was taken by the memory and is not answered yet (R200). -/
  waiting  : Bool
  /-- The model's own: the memory answers in the step that takes the read (log 5). -/
  prompt   : Bool
  /-- How many reads issued before a reset are still to be answered (R191; log 20). -/
  stale    : Nat
deriving DecidableEq, Repr

/-- The registers of the generic request channel (R35). -/
structure GenReq where
  /-- `GEN_PTR`. -/
  ptr    : Nat
  /-- `GEN_SUBOFF`. -/
  subOff : BitVec 3
  /-- `GEN_WIDTH`. -/
  width  : BitVec 7
  /-- `GEN_LE`. -/
  le     : Bool
  /-- `GEN_SGN`. -/
  sgn    : Bool
  /-- `GEN_AVAIL`. -/
  avail  : Nat
deriving DecidableEq, Repr

/-- The generic decoder's port (R35, R36), what is outstanding on it, and the attached unit. -/
structure GenPort where
  /-- `gen_req_valid`. -/
  reqValid : Bool
  /-- `gen_req_ready`, driven by the generic decoder. -/
  reqReady : Bool
  call     : GenReq
  /-- `gen_rsp_valid`, driven by the generic decoder. -/
  rspValid : Bool
  /-- `gen_rsp_ready`, driven by the engine (log 25). -/
  rspReady : Bool
  /-- `GEN_RSP_OK`. -/
  rspOk    : Bool
  /-- `GEN_RSP_VALUE`. -/
  rspValue : Value
  /-- A request was taken by the decoder and is not answered yet (R200). -/
  waiting  : Bool
  /-- The model's own: the decoder answers in the step that takes the request (log 5). -/
  prompt   : Bool
  /-- How many requests issued before a reset are still to be answered (R191; log 20). -/
  stale    : Nat
  /-- The unit attached to the port (R194). -/
  unit     : Config.GenericUnit
deriving DecidableEq, Repr

/-- The buffer memory (R38, R50): the bytes it answers a read with, by address, addresses strictly rising. An address that is
not listed is answered with `MEM_RSP_ERR = 1` (R59; log 11). -/
abbrev Memory := List Host.Cell

/-- What the outside does next, one entry a step (20_memory.md R65, R66; 10_state.md R20; log 6). -/
inductive Input where
  /-- The engine moves before the rest of the list is read. -/
  | engineTurn
  /-- The requester drives the request fields and `req_valid = 1` (R25 to R29), also over a request not yet accepted (R196). -/
  | present (r : Request)
  /-- The requester drives `req_valid = 0`. -/
  | withdraw
  /-- The requester drives `rsp_ready`. -/
  | rspReady (b : Bool)
  /-- Another agent writes a byte of the buffer memory (R65, R66). -/
  | storeByte (a : Nat) (b : Byte)
  /-- The memory answers this address with an error from now on (R59; log 32). -/
  | breakByte (a : Nat)
  /-- The memory drives `mem_req_ready`. -/
  | memReady (b : Bool)
  /-- The memory begins, or ceases, to answer in the step that takes a read. -/
  | memPrompt (b : Bool)
  /-- The memory answers the outstanding read, with an error if `err` (R37, R59). -/
  | memAnswer (err : Bool)
  /-- The memory answers a read issued before a reset (R191). -/
  | memStaleAnswer
  /-- The generic decoder drives `gen_req_ready`. -/
  | genReady (b : Bool)
  /-- The generic decoder begins, or ceases, to answer in the step that takes a request. -/
  | genPrompt (b : Bool)
  /-- The attached generic decoder answers the outstanding request (R36, R156). -/
  | genAnswer
  /-- A decoder that need not meet its laws answers the outstanding request (R152, I7; log 26). -/
  | genAnswerWith (ok : Bool) (v : Value)
  /-- The generic decoder answers a request issued before a reset (R191). -/
  | genStaleAnswer
  /-- The platform attaches a generic decoder (R194 item 1). -/
  | attachGeneric (u : Config.GenericUnit)
  /-- The reset input is asserted (R190); with `together`, the memory port and the generic decoder are reset too (R191). -/
  | assertReset (together : Bool)
  /-- The reset input is released (R190). -/
  | releaseReset
deriving DecidableEq, Repr

/-- The machine's state. -/
structure State where
  /-- ADDR_W and PIPE_DEPTH (R7). -/
  cfg       : Config.Params
  /-- The request port (R25 to R29). -/
  req       : ReqPort
  /-- The response port (R29 to R33). -/
  rsp       : RspPort
  /-- The in-flight queue, head first (R40). -/
  q         : List Entry
  /-- The buffer memory (R38). -/
  mem       : Memory
  /-- The memory read channel (R37). -/
  memPort   : MemPort
  /-- The generic decoder's port (R35, R36). -/
  gen       : GenPort
  /-- The reset input is asserted (R190). -/
  inReset   : Bool
  /-- The model's own: the responses the requester has consumed, oldest first (R29; log 24). -/
  received  : List RspData
  /-- The model's own: how many free responses were drawn (log 13, log 24). -/
  freeCount : Nat
  /-- The model's own: what the outside does next, first entry first (log 6, log 24). -/
  inputs    : List Input
deriving DecidableEq, Repr

/-- The outcome of a step of this machine. -/
abbrev Result := Host.Outcome State Fault Refusal

/-- What a port answers within a step: nothing yet, with the state that waits, or an answer. -/
inductive Reply (α : Type) where
  | wait (s : State)
  | done (a : α) (s : State)

/-- The response registers after reset: unspecified by R41. R30 says RSP_OK always equals (RSP_CAUSE = 0), so with cause 0 it
is 1 (log 9). -/
def RspData.reset : RspData := { ok := true, signed := false, value := 0, cause := 0 }

/-- The memory read channel after reset (R41; log 9). -/
def MemPort.reset : MemPort :=
  { reqValid := false, reqReady := true, addr := 0, nbytes := 0, rspValid := false
    rspData := #v[0, 0, 0, 0, 0, 0, 0, 0], rspErr := false,
    waiting := false, prompt := true, stale := 0 }

/-- The generic request registers after reset (R41; log 9). -/
def GenReq.reset : GenReq := { ptr := 0, subOff := 0, width := 0, le := false, sgn := false, avail := 0 }

/-- The generic decoder's port after reset (R41; log 3, log 9). -/
def GenPort.reset : GenPort :=
  { reqValid := false, reqReady := true, call := GenReq.reset, rspValid := false, rspReady := false, rspOk := false,
    rspValue := 0, waiting := false, prompt := true, stale := 0, unit := .conforming }

/-- The machine right after reset, for given parameters (R41, R190; log 9, log 11). -/
def State.resetWith (p : Config.Params) : State :=
  { cfg := p
    req := { valid := false, ready := false, fields := { base := 0, len := 0, offset := 0, ctrl := 0 } }
    rsp := { valid := false, ready := false, data := RspData.reset }
    q := [], mem := [], memPort := MemPort.reset, gen := GenPort.reset, inReset := false
    received := [], freeCount := 0, inputs := [] }

/-- The machine right after reset. -/
def State.reset : State := State.resetWith Config.params

/-- The state with another request port. -/
def State.withReq (s : State) (p : ReqPort) : State := { s with req := p }
/-- The state with another response port. -/
def State.withRsp (s : State) (p : RspPort) : State := { s with rsp := p }
/-- The state with another in-flight queue. -/
def State.withQueue (s : State) (q : List Entry) : State := { s with q := q }
/-- The state with another buffer memory. -/
def State.withMem (s : State) (m : Memory) : State := { s with mem := m }
/-- The state with another memory read channel. -/
def State.withMemPort (s : State) (p : MemPort) : State := { s with memPort := p }
/-- The state with another generic decoder's port. -/
def State.withGen (s : State) (p : GenPort) : State := { s with gen := p }
/-- The state with another level of the reset input. -/
def State.withInReset (s : State) (b : Bool) : State := { s with inReset := b }
/-- The state with another record of consumed responses. -/
def State.withReceived (s : State) (l : List RspData) : State := { s with received := l }
/-- The state with another count of free responses. -/
def State.withFreeCount (s : State) (n : Nat) : State := { s with freeCount := n }
/-- The state with another list of inputs. -/
def State.withInputs (s : State) (l : List Input) : State := { s with inputs := l }

end Sys2Proof.Machine
end

