-- ==== Sys2Proof/Machine/Flags.lean ====
section
/-! DEFINITION. The response fields that every instruction writes (10_state.md R30 to R33) and the sign stage
(41_fastpath.md R112, R113). The block has no condition flags (R23). -/

namespace Sys2Proof.Machine

/-- The code of a cause in RSP_CAUSE (R33). -/
def Cause.code : Cause → BitVec 3
  | .bounds => 1
  | .unaligned => 2
  | .sign64 => 3
  | .genericFail => 4
  | .illegal => 5
  | .busError => 6

/-- The response registers of a response (R30 to R33, R97). -/
def Response.data : Response → RspData
  | .ok v s => { ok := true, signed := s, value := v, cause := 0 }
  | .fail c => { ok := false, signed := false, value := 0, cause := c.code }

/-- `zext_64` (R9). -/
def zext64 {n : Nat} (v : BitVec n) : Value := v.setWidth 64

/-- `sext_64` (R9). -/
def sext64 {n : Nat} (v : BitVec n) : Value := v.signExtend 64

/-- The pattern read as the request's SGN says, as a 64-bit value (R112). -/
def extend64 {n : Nat} (sgn : Bool) (v : BitVec n) : Value := if sgn then sext64 v else zext64 v

/-- The sign stage for a signed 64-bit request: a pattern with bit 63 set is rejected (R113). -/
def signCheck64 (raw : Value) : Response := if raw.msb then .fail .sign64 else .ok raw true

/-- The integer that a response denotes, if it carries a value (R13). -/
def RspData.meaning (d : RspData) : Option Int :=
  if d.ok then some (if d.signed then d.value.toInt else (d.value.toNat : Int)) else none

/-- The value of a response to a request whose bytes were written in flight: any bits, extended from `w` bits as SGN says, with
bit 63 clear for a signed request of 64 bits (R66). -/
def disturbedExtend (w : Nat) (sgn : Bool) (v : Value) : Value :=
  if w = 64 ∧ sgn = true then v &&& 0x7FFF_FFFF_FFFF_FFFF#64 else extend64 sgn (v.setWidth w)

/-- The `k`-th response to a request whose bytes were written in flight: one of the four outcomes R66 allows, the choice and the
value left open (log 13). -/
def disturbedResponse (w : Nat) (sgn : Bool) (k : Nat) : Response :=
  if Config.disturbedCause k = 0 then .ok (disturbedExtend w sgn (Config.disturbedValue k)) sgn
  else if Config.disturbedCause k = 1 then .fail .sign64
  else if Config.disturbedCause k = 2 then .fail .genericFail
  else .fail .busError

end Sys2Proof.Machine
end

