-- ==== Sys2Proof/WellFormed.lean ====
section
/-! DEFINITION. Which terms of `Instr` are instructions: only `EXTG` has an operand in its control word, and its width is one of
the row's `width_set` (30_encoding.md R73, R75; 42_generic.md R150). -/

namespace Sys2Proof

/-- A generic width is not 0 (R76). -/
def widthNonzero (w : BitVec 7) : Bool := w != 0

/-- A generic width is at most 63: 64 belongs to the fast path and larger ones are illegal (R73, R76). -/
def widthBelow64 (w : BitVec 7) : Bool := decide (w.toNat < 64)

/-- A generic width is none of the fast-path widths below 64 (R73). -/
def widthNotFast (w : BitVec 7) : Bool := w != 8 && w != 16 && w != 32

/-- The widths of `EXTG`, as the table's `width_set` lists them (R75). -/
def genericWidth (w : BitVec 7) : Bool := widthNonzero w && widthBelow64 w && widthNotFast w

/-- Is this term an instruction of the table? -/
def Instr.wellFormed : Instr → Bool
  | .ext8u _ => true
  | .ext8s _ => true
  | .ext16ub => true
  | .ext16ul => true
  | .ext16sb => true
  | .ext16sl => true
  | .ext32ub => true
  | .ext32ul => true
  | .ext32sb => true
  | .ext32sl => true
  | .ext64ub => true
  | .ext64ul => true
  | .ext64sb => true
  | .ext64sl => true
  | .extg w _ _ => genericWidth w

end Sys2Proof
end

