-- ==== Sys2Proof/Decode.lean ====
section
/-! DEFINITION. The control word's fields, the decoder, the encoder and the assembler (30_encoding.md R71 to R81). -/

namespace Sys2Proof

/-- Why a control word is illegal (R76). Each is answered `Fail(ILLEGAL)`. -/
inductive Illegal where
  /-- `CTRL[15:9] ≠ 0`. -/
  | reservedBits
  /-- `WIDTH = 0`. -/
  | widthZero
  /-- `WIDTH` in 65..127. -/
  | widthOver64
deriving DecidableEq, Repr

/-- WIDTH, `CTRL[6:0]` (R71). -/
def ctrlWidth (c : CtrlWord) : BitVec 7 := c.extractLsb' 0 7

/-- LE, `CTRL[7]`: 0 big endian, 1 little endian (R71). -/
def ctrlLe (c : CtrlWord) : Bool := c.getLsbD 7

/-- SGN, `CTRL[8]`: 0 unsigned, 1 signed (R71). -/
def ctrlSgn (c : CtrlWord) : Bool := c.getLsbD 8

/-- RSVD, `CTRL[15:9]` (R71). -/
def ctrlRsvd (c : CtrlWord) : BitVec 7 := c.extractLsb' 9 7

/-- The instruction of a legal width and two flags (R74, its last five lines). -/
def decodeLegal (w : BitVec 7) (sgn le : Bool) : Instr :=
  if w = 8 then (if sgn then .ext8s le else .ext8u le)
  else if w = 16 then
    (if sgn then (if le then .ext16sl else .ext16sb) else (if le then .ext16ul else .ext16ub))
  else if w = 32 then
    (if sgn then (if le then .ext32sl else .ext32sb) else (if le then .ext32ul else .ext32ub))
  else if w = 64 then
    (if sgn then (if le then .ext64sl else .ext64sb) else (if le then .ext64ul else .ext64ub))
  else .extg w sgn le

/-- The decode function (R74), total on all words. -/
def decode (c : CtrlWord) : Except Illegal Instr :=
  if ctrlRsvd c ≠ 0 then .error .reservedBits
  else if ctrlWidth c = 0 then .error .widthZero
  else if 64 < (ctrlWidth c).toNat then .error .widthOver64
  else .ok (decodeLegal (ctrlWidth c) (ctrlSgn c) (ctrlLe c))

/-- The decoder on a word of the opcode table: the table's bits are those of CTRL, bit 0 the least significant, and a request
has no further word. Bits beyond CTRL are no control word. -/
def decodeTableWord (nbits w : Nat) : Option Instr :=
  if w % 2 ^ nbits < 2 ^ 16 then
    match decode (BitVec.ofNat 16 (w % 2 ^ nbits)) with
    | .ok i => some i
    | .error _ => none
  else none

/-- A control word from its fields, RSVD zero (R71). -/
def ctrlOf (w : BitVec 7) (sgn le : Bool) : CtrlWord :=
  0#7 ++ BitVec.ofBool sgn ++ BitVec.ofBool le ++ w

/-- The encoder: the control word of an instruction (R75, R150). -/
def encode : Instr → CtrlWord
  | .ext8u le => ctrlOf 8 false le
  | .ext8s le => ctrlOf 8 true le
  | .ext16ub => ctrlOf 16 false false
  | .ext16ul => ctrlOf 16 false true
  | .ext16sb => ctrlOf 16 true false
  | .ext16sl => ctrlOf 16 true true
  | .ext32ub => ctrlOf 32 false false
  | .ext32ul => ctrlOf 32 false true
  | .ext32sb => ctrlOf 32 true false
  | .ext32sl => ctrlOf 32 true true
  | .ext64ub => ctrlOf 64 false false
  | .ext64ul => ctrlOf 64 false true
  | .ext64sb => ctrlOf 64 true false
  | .ext64sl => ctrlOf 64 true true
  | .extg w sgn le => ctrlOf w sgn le

/-- The fast-path words the assembler emits, by mnemonic (R75; for EXT8U and EXT8S with LE = 0, R80). -/
def fastWords : List (String × CtrlWord) :=
  [("EXT8U", 0x0008), ("EXT8S", 0x0108),
   ("EXT16UB", 0x0010), ("EXT16UL", 0x0090), ("EXT16SB", 0x0110), ("EXT16SL", 0x0190),
   ("EXT32UB", 0x0020), ("EXT32UL", 0x00A0), ("EXT32SB", 0x0120), ("EXT32SL", 0x01A0),
   ("EXT64UB", 0x0040), ("EXT64UL", 0x00C0), ("EXT64SB", 0x0140), ("EXT64SL", 0x01C0)]

/-- A request from a buffer, an offset and a control word, if every operand is in its range (R80). -/
def buildRequest (addrW base len off : Nat) (c : CtrlWord) : Option Request :=
  if base < 2 ^ addrW ∧ len < 2 ^ addrW ∧ off < 2 ^ 64 then
    some { base := base, len := len, offset := BitVec.ofNat 64 off, ctrl := c }
  else none

/-- The assembler (R80, R81): the request of a line, or none where it rejects the line. -/
def assemble (addrW : Nat) : AsmLine → Option Request
  | .fast m base len off =>
    match fastWords.lookup m with
    | some c => buildRequest addrW base len off c
    | none => none
  | .extg w sgn le base len off =>
    if w < 128 ∧ genericWidth (BitVec.ofNat 7 w) then
      buildRequest addrW base len off (ctrlOf (BitVec.ofNat 7 w) sgn le)
    else none
  | .ext w sgn le base len off =>
    if 1 ≤ w ∧ w ≤ 64 then
      buildRequest addrW base len off (ctrlOf (BitVec.ofNat 7 w) sgn le)
    else none

end Sys2Proof
end

