-- ==== Sys2Proof/Machine/Operands.lean ====
section
/-! DEFINITION. The operands of a request: its decoded fields (30_encoding.md R72), the pre-checks and the byte address
(40_bounds_dispatch.md R91, R94, R95), and the forming of a pattern from bytes and from bits (20_memory.md R51, R52;
42_generic.md R157, R158). -/

namespace Sys2Proof.Machine

/-- The bits in the buffer, `8 * toNat(LEN)`, in ℕ (R91). -/
def totalBits (r : Request) : Nat := 8 * r.len

/-- The byte offset, `OFFSET div 8` (R72). -/
def byteOffset (r : Request) : Nat := r.offset.toNat / 8

/-- The byte address of the first byte to read (R62, R95). -/
def effAddr (addrW : Nat) (r : Request) : Nat := (r.base + byteOffset r) % 2 ^ addrW

/-- The bytes left in the buffer from `effAddr` on, the value of GEN_AVAIL (R151). -/
def bytesLeft (r : Request) : Nat := r.len - byteOffset r

/-- The number of bytes that `w` bits from a byte boundary span (R58, R99). -/
def bytesOf (w : Nat) : Nat := (w + 7) / 8

/-- The `k` byte addresses from `a` on (R62). -/
def byteAddrs (addrW a k : Nat) : List Nat := (List.range k).map fun i => (a + i) % 2 ^ addrW

/-- The guarded bounds check (R91), exact at any width (R93). -/
def exceedsBuffer (r : Request) (w : Nat) : Bool :=
  decide (totalBits r < r.offset.toNat) || decide (totalBits r - r.offset.toNat < w)

/-- The alignment check (R94). -/
def offsetUnaligned (r : Request) : Bool := r.offset.toNat % 8 != 0

/-- The checks made before anything is read, in the order of R96, of a request whose control word is legal. -/
def precheck (r : Request) (w : Nat) : Option Cause :=
  if exceedsBuffer r w then some .bounds
  else if offsetUnaligned r then some .unaligned
  else none

/-- The byte addresses a request reads (R58): those of the width's bytes when the request passes every pre-check, and none when
it does not (R61). -/
def readWindow (addrW : Nat) (r : Request) : List Nat :=
  match decode r.ctrl with
  | .error _ => []
  | .ok _ =>
    match precheck r (ctrlWidth r.ctrl).toNat with
    | some _ => []
    | none => byteAddrs addrW (effAddr addrW r) (bytesOf (ctrlWidth r.ctrl).toNat)

/-- The number that bytes denote with the lowest-address byte most significant. -/
def beNat : List Byte → Nat
  | [] => 0
  | b :: bs => b.toNat * 256 ^ bs.length + beNat bs

/-- The number that bytes denote with the lowest-address byte least significant. -/
def leNat : List Byte → Nat
  | [] => 0
  | b :: bs => b.toNat + 256 * leNat bs

/-- `beAssemble`, as a pattern of `w` bits (R10, R51). -/
def beAssemble (w : Nat) (bs : List Byte) : BitVec w := BitVec.ofNat w (beNat bs)

/-- `leAssemble`, as a pattern of `w` bits (R10, R52). -/
def leAssemble (w : Nat) (bs : List Byte) : BitVec w := BitVec.ofNat w (leNat bs)

/-- Bit `t` of the stream: bit `7 - (t mod 8)` of byte `t div 8` (R158). -/
def streamBit (bs : List Byte) (t : Nat) : Bool := (bs.getD (t / 8) 0).getLsbD (7 - t % 8)

/-- The `n` bits of a range that starts at bit `o` of the stream (R157, R158). -/
def streamBits (bs : List Byte) (o n : Nat) : List Bool := (List.range n).map fun j => streamBit bs (o + j)

/-- The number that bits denote with the first one most significant. -/
def bitsNat : List Bool → Nat
  | [] => 0
  | b :: bs => b.toNat * 2 ^ bs.length + bitsNat bs

/-- The first `k` groups of eight stream bits, as bytes. -/
def packBytes : Nat → List Bool → List Byte
  | 0, _ => []
  | k + 1, bits => BitVec.ofNat 8 (bitsNat (bits.take 8)) :: packBytes k (bits.drop 8)

/-- The little-endian pattern of `GenericRef` (R157): the `q` whole groups of eight bits come first, least significant first,
and the bits left over are the most significant ones. -/
def leStream : Nat → List Bool → Nat
  | 0, bits => bitsNat bits
  | q + 1, bits => bitsNat (bits.take 8) + 256 * leStream q (bits.drop 8)

end Sys2Proof.Machine
end

