-- ==== Sys2Proof/Machine/Ops.lean ====
section
/-! DEFINITION. The named operations: the buffer memory, the generic decoder's answer, the two channels, the response, and the
two paths of a request (20_memory.md, 40_bounds_dispatch.md, 41_fastpath.md, 42_generic.md). The block takes no exception and
returns from none (60_exceptions.md R170, R174, R175): `State.respond` with a failure is all that a failed request does. -/

namespace Sys2Proof.Machine

/-- The byte that the memory answers for an address, none where it answers with an error (R37, R59). -/
def memByte : Memory → Nat → Option Byte
  | [], _ => none
  | (k, v) :: m, a => if k = a then some v else memByte m a

/-- Another agent writes a byte; the engine never does (R64, R65). -/
def memStore : Memory → Nat → Byte → Memory
  | [], a, b => [(a, b)]
  | (k, v) :: m, a, b =>
    if a < k then (a, b) :: (k, v) :: m
    else if a = k then (a, b) :: m
    else (k, v) :: memStore m a b

/-- From now on the memory answers this address with an error. -/
def memErase : Memory → Nat → Memory
  | [], _ => []
  | (k, v) :: m, a => if k = a then memErase m a else (k, v) :: memErase m a

/-- The canonical form: addresses strictly rising. No listed byte can be what an unlisted address reads as, an error. -/
def Memory.wf : Memory → Bool
  | [] => true
  | (k, _) :: m => m.all (fun c => decide (k < c.1)) && Memory.wf m

/-- `MemRead(a, n)` (R10): the `n` bytes from `a` on, addresses modulo `2^ADDR_W`, or none for BusError. -/
def memRead (m : Memory) (addrW : Nat) : Nat → Nat → Option (List Byte)
  | _, 0 => some []
  | a, n + 1 =>
    match memByte m (a % 2 ^ addrW), memRead m addrW (a + 1) n with
    | some b, some bs => some (b :: bs)
    | _, _ => none

/-- The pattern of `GenericRef` (R157): big endian takes the stream as it comes, little endian the chunks of `leStream`. -/
def referencePattern (bits : List Bool) (n : Nat) (le : Bool) : BitVec n :=
  BitVec.ofNat n (if le then leStream (n / 8) bits else bitsNat bits)

/-- The pattern of the conforming unit: law L2 fixes it for whole bytes (R154), GENERIC_DECODE leaves it open elsewhere
(R155, R157; log 3, log 4, log 31). -/
def conformingPattern (bits : List Bool) (n : Nat) (le : Bool) : BitVec n :=
  if n % 8 = 0 ∧ n < 64 then
    if le then leAssemble n (packBytes (n / 8) bits) else beAssemble n (packBytes (n / 8) bits)
  else (Config.genericDecode bits n le).setWidth n

/-- The pattern of an attached unit. -/
def unitPattern : Config.GenericUnit → List Bool → (n : Nat) → Bool → BitVec n
  | .conforming, bits, n, le => conformingPattern bits n le
  | .reference, bits, n, le => referencePattern bits n le

/-- What an attached unit answers to a generic request: none exactly in the cases of law L1 (R153), else the pattern extended
as SGN says (R155, R157). It reads only the bytes the range spans, and nothing of the engine (R156). -/
def genericAnswer (u : Config.GenericUnit) (m : Memory) (addrW : Nat) (g : GenReq) : Option Value :=
  let o := g.subOff.toNat
  let n := g.width.toNat
  let k := bytesOf (o + n)
  if n = 0 ∨ 64 < n ∨ g.avail < k then none
  else
    match memRead m addrW g.ptr k with
    | none => none
    | some bs => some (extend64 g.sgn (unitPattern u (streamBits bs o n) n g.le))

/-- The engine puts a response on the response port (R11, R29 to R33, R97). -/
def State.respond (s : State) (r : Response) : State :=
  s.withRsp { s.rsp with valid := true, data := r.data }

/-- The engine answers the head of the queue with what its path gave. A request whose bytes were written in flight gets a free
response inside the bounds of R66 instead (log 13). -/
def State.settle (s : State) (e : Entry) (w : Nat) (sgn : Bool) (r : Response) : State :=
  if e.disturbed then (s.respond (disturbedResponse w sgn s.freeCount)).withFreeCount (s.freeCount + 1)
  else s.respond r

/-- The memory channel when the engine drives a read (R37). -/
def MemPort.drive (p : MemPort) (a k : Nat) : MemPort :=
  { p with reqValid := true, addr := a, nbytes := BitVec.ofNat 4 k }

/-- The memory channel after a read that the memory took and has still to answer. -/
def MemPort.take (p : MemPort) (a k : Nat) : MemPort :=
  { p.drive a k with reqValid := false, waiting := true }

/-- `MEM_RSP_DATA` of an answer to a read of `k` bytes at `a`, none an error: lane `i` holds the byte at `a + i` (R37). A lane that the
answer gives no byte holds an open value (log 15). -/
def laneData (a k : Nat) (bs : Option (List Byte)) : Vector Byte 8 :=
  Vector.ofFn fun i => (bs.getD []).getD i (Config.idleLane a k i)

/-- The first `k` lanes, the bytes that an answer carries (R37). -/
def laneBytes (d : Vector Byte 8) (k : Nat) : List Byte := d.toList.take k

/-- The memory channel after a read that was taken, answered and consumed: the answer is none for an error (R37, R59). -/
def MemPort.finish (p : MemPort) (a k : Nat) (bs : Option (List Byte)) : MemPort :=
  { p.drive a k with reqValid := false, rspData := laneData a k bs, rspErr := bs.isNone }

/-- The load stage's read of `k` bytes at `a` through the memory channel (R37, R110): it consumes an answer that has come, waits
for one that is outstanding, and otherwise drives the read, which the memory takes when it is ready and answers in this step
when it is prompt (log 5, log 12, log 23). -/
def loadBytes (s : State) (a k : Nat) : Reply (Option (List Byte)) :=
  if s.memPort.rspValid then
    .done (if s.memPort.rspErr then none else some (laneBytes s.memPort.rspData k))
      (s.withMemPort { s.memPort with rspValid := false })
  else if s.memPort.waiting then .wait s
  else if !s.memPort.reqReady then .wait (s.withMemPort (s.memPort.drive a k))
  else if !s.memPort.prompt then .wait (s.withMemPort (s.memPort.take a k))
  else
    .done (memRead s.mem s.cfg.addrW a k)
      (s.withMemPort (s.memPort.finish a k (memRead s.mem s.cfg.addrW a k)))

/-- The fast path of the head request, for an instruction of `w` bits with sign flag `sgn` (R90, R91, R94, R110): the pre-checks,
the load stage, then the instruction's own stages `value` on the bytes read. With no request in flight there is nothing to
do (R182; log 22). -/
def fastPath (s : State) (w : Nat) (sgn : Bool) (value : List Byte → Response) : Result :=
  match s.q with
  | [] => .next s
  | e :: _ =>
    match precheck e.req w with
    | some c => .next (s.respond (.fail c))
    | none =>
      match loadBytes s (effAddr s.cfg.addrW e.req) (w / 8) with
      | .wait s' => .next s'
      | .done none s' => .next (s'.settle e w sgn (.fail .busError))
      | .done (some bs) s' => .next (s'.settle e w sgn (value bs))

/-- The generic channel when the engine drives a request (R35, R151). -/
def GenPort.drive (p : GenPort) (g : GenReq) : GenPort := { p with reqValid := true, call := g }

/-- The generic channel after a request that the decoder took and has still to answer: the engine is ready for the answer
(log 25). -/
def GenPort.take (p : GenPort) (g : GenReq) : GenPort :=
  { p.drive g with reqValid := false, waiting := true, rspReady := true }

/-- `GEN_RSP_VALUE` of an attached unit's answer: its value, and an open one where it answers absence (R36; log 33). -/
def rspValueOf (g : GenReq) (v : Option Value) : Value :=
  v.getD (Config.absentValue g.ptr g.subOff g.width g.le g.sgn g.avail)

/-- The generic channel after a request that was taken, answered and consumed (R36). What the value register holds after absence is
open (log 33). -/
def GenPort.finish (p : GenPort) (g : GenReq) (v : Option Value) : GenPort :=
  { p.drive g with reqValid := false, rspReady := false, rspOk := v.isSome, rspValue := rspValueOf g v }

/-- One request to the generic decoder and its answer (R150, R151), with the waits of `loadBytes`. -/
def genericCall (s : State) (g : GenReq) : Reply (Option Value) :=
  if s.gen.rspValid then
    .done (if s.gen.rspOk then some s.gen.rspValue else none)
      (s.withGen { s.gen with rspValid := false, rspReady := false })
  else if s.gen.waiting then .wait s
  else if !s.gen.reqReady then .wait (s.withGen (s.gen.drive g))
  else if !s.gen.prompt then .wait (s.withGen (s.gen.take g))
  else
    .done (genericAnswer s.gen.unit s.mem s.cfg.addrW g)
      (s.withGen (s.gen.finish g (genericAnswer s.gen.unit s.mem s.cfg.addrW g)))

/-- The values the engine drives for a request on the generic path (R151). -/
def genericRequest (addrW : Nat) (r : Request) (w : BitVec 7) (sgn le : Bool) : GenReq :=
  { ptr := effAddr addrW r, subOff := 0, width := w, le := le, sgn := sgn, avail := bytesLeft r }

end Sys2Proof.Machine
end

