-- ==== Sys2Proof/Machine/Fast16.lean ====
section
/-! DEFINITION. The 16-bit fast-path instructions (41_fastpath.md R118 to R121): for each, its byte order (R111) and its sign stage
(R112), over the shared fast path. -/

namespace Sys2Proof.Machine

/-- EXT16UB (R118). -/
def execExt16ub (s : State) : Result :=
  fastPath s 16 false fun bs => .ok (zext64 (beAssemble 16 bs)) false

/-- EXT16UL (R119). -/
def execExt16ul (s : State) : Result :=
  fastPath s 16 false fun bs => .ok (zext64 (leAssemble 16 bs)) false

/-- EXT16SB (R120). -/
def execExt16sb (s : State) : Result :=
  fastPath s 16 true fun bs => .ok (sext64 (beAssemble 16 bs)) true

/-- EXT16SL (R121). -/
def execExt16sl (s : State) : Result :=
  fastPath s 16 true fun bs => .ok (sext64 (leAssemble 16 bs)) true

end Sys2Proof.Machine
end

