-- ==== Sys2Proof/Machine/Fast32.lean ====
section
/-! DEFINITION. The 32-bit fast-path instructions (41_fastpath.md R122 to R125): for each, its byte order (R111) and its sign stage
(R112), over the shared fast path. -/

namespace Sys2Proof.Machine

/-- EXT32UB (R122). -/
def execExt32ub (s : State) : Result :=
  fastPath s 32 false fun bs => .ok (zext64 (beAssemble 32 bs)) false

/-- EXT32UL (R123). -/
def execExt32ul (s : State) : Result :=
  fastPath s 32 false fun bs => .ok (zext64 (leAssemble 32 bs)) false

/-- EXT32SB (R124). -/
def execExt32sb (s : State) : Result :=
  fastPath s 32 true fun bs => .ok (sext64 (beAssemble 32 bs)) true

/-- EXT32SL (R125). -/
def execExt32sl (s : State) : Result :=
  fastPath s 32 true fun bs => .ok (sext64 (leAssemble 32 bs)) true

end Sys2Proof.Machine
end

