-- ==== Sys2Proof/Machine/Fast64.lean ====
section
/-! DEFINITION. The 64-bit fast-path instructions (41_fastpath.md R126 to R129): for each, its byte order (R111) and its sign stage
(R113), over the shared fast path. -/

namespace Sys2Proof.Machine

/-- EXT64UB (R126). -/
def execExt64ub (s : State) : Result :=
  fastPath s 64 false fun bs => .ok (beAssemble 64 bs) false

/-- EXT64UL (R127). -/
def execExt64ul (s : State) : Result :=
  fastPath s 64 false fun bs => .ok (leAssemble 64 bs) false

/-- EXT64SB (R128). -/
def execExt64sb (s : State) : Result :=
  fastPath s 64 true fun bs => signCheck64 (beAssemble 64 bs)

/-- EXT64SL (R129). -/
def execExt64sl (s : State) : Result :=
  fastPath s 64 true fun bs => signCheck64 (leAssemble 64 bs)

end Sys2Proof.Machine
end

