-- ==== Sys2Proof/Machine/Fast8.lean ====
section
/-! DEFINITION. The 8-bit fast-path instructions (41_fastpath.md R116, R117): for each, its byte order (R111) and its sign stage
(R112), over the shared fast path. -/

namespace Sys2Proof.Machine

/-- EXT8U (R116). The LE bit of the word is ignored (R77). -/
def execExt8u (_le : Bool) (s : State) : Result :=
  fastPath s 8 false fun bs => .ok (zext64 (beAssemble 8 bs)) false

/-- EXT8S (R117). The LE bit of the word is ignored (R77). -/
def execExt8s (_le : Bool) (s : State) : Result :=
  fastPath s 8 true fun bs => .ok (sext64 (beAssemble 8 bs)) true

end Sys2Proof.Machine
end

