-- ==== Sys2Proof/Machine/Generic.lean ====
section
/-! DEFINITION. The generic path (42_generic.md R150 to R152). -/

namespace Sys2Proof.Machine

/-- EXTG (R150): the pre-checks, one request to the generic decoder with the values of R151, and its answer: the value passes
through unchanged with the request's own tag, absence becomes GENERIC_FAIL (R152). With no request in flight there is nothing
to do (R182; log 22). -/
def execExtg (w : BitVec 7) (sgn le : Bool) (s : State) : Result :=
  match s.q with
  | [] => .next s
  | e :: _ =>
    match precheck e.req w.toNat with
    | some c => .next (s.respond (.fail c))
    | none =>
      match genericCall s (genericRequest s.cfg.addrW e.req w sgn le) with
      | .wait s' => .next s'
      | .done none s' => .next (s'.settle e w.toNat sgn (.fail .genericFail))
      | .done (some v) s' => .next (s'.settle e w.toNat sgn (.ok v sgn))

end Sys2Proof.Machine
end

