-- ==== Sys2Proof/Machine/Dispatch.lean ====
section
/-! DEFINITION. One arm per instruction (40_bounds_dispatch.md R95). -/

namespace Sys2Proof.Machine

def exec (i : Instr) (s : State) : Host.Outcome State Fault Refusal :=
  match i with
  | .ext8u le => Sys2Proof.Machine.execExt8u le s
  | .ext8s le => Sys2Proof.Machine.execExt8s le s
  | .ext16ub => Sys2Proof.Machine.execExt16ub s
  | .ext16ul => Sys2Proof.Machine.execExt16ul s
  | .ext16sb => Sys2Proof.Machine.execExt16sb s
  | .ext16sl => Sys2Proof.Machine.execExt16sl s
  | .ext32ub => Sys2Proof.Machine.execExt32ub s
  | .ext32ul => Sys2Proof.Machine.execExt32ul s
  | .ext32sb => Sys2Proof.Machine.execExt32sb s
  | .ext32sl => Sys2Proof.Machine.execExt32sl s
  | .ext64ub => Sys2Proof.Machine.execExt64ub s
  | .ext64ul => Sys2Proof.Machine.execExt64ul s
  | .ext64sb => Sys2Proof.Machine.execExt64sb s
  | .ext64sl => Sys2Proof.Machine.execExt64sl s
  | .extg w sgn le => Sys2Proof.Machine.execExtg w sgn le s

end Sys2Proof.Machine
end

