-- ==== Sys2Proof/Machine/Engine.lean ====
section
/-! DEFINITION. What one step does: the engine's turn (delivery, acceptance, the head request), and each input from outside
(10_state.md R20, R29, R40; 70_reset_and_hazards.md R190, R191, R196, R197). -/

namespace Sys2Proof.Machine

/-- Is there room in the in-flight queue (R40)? -/
def State.hasRoom (s : State) : Bool := decide (s.q.length < s.cfg.pipeDepth)

/-- The engine drives `req_ready`: 0 whenever the queue is full, else 1 (R29, R40, R197; log 8). -/
def State.driveReady (s : State) : State := s.withReq { s.req with ready := s.hasRoom }

/-- A request is accepted: its latched copy joins the tail of the queue (R40). The presentation ends (log 7). -/
def State.accept (s : State) : State :=
  let t := s.withQueue (s.q ++ [{ req := s.req.fields, disturbed := false }])
  (t.withReq { t.req with valid := false }).driveReady

/-- The head's response is delivered and the head leaves the queue (R29, R40). The reserved cause is never produced; a machine
that shows it has gone wrong (I12; log 21). -/
def State.deliver (s : State) : Result :=
  if s.rsp.data.cause = 7 then .fault .reservedCause
  else
    .next (((s.withRsp { s.rsp with valid := false }).withQueue s.q.tail).withReceived
      (s.received ++ [s.rsp.data])).driveReady

/-- The head request is executed (R90): an illegal word is answered at once (R76, R96), any other runs its instruction. -/
def runHead (s : State) (e : Entry) : Result :=
  match decode e.req.ctrl with
  | .error _ => .next (s.respond (.fail .illegal))
  | .ok i => exec i s

/-- The engine's turn (log 6). A response and a request are transferred as soon as both sides of their handshake hold; else the
head request is executed, unless its response is still on the port, where it is held (R29, R197). The model's choice where R65
allows overlap: only the head's bytes are read, so the reads of two requests go in the order of acceptance (log 34). -/
def engineTurn (s : State) : Result :=
  if s.inReset then .next s
  else if s.rsp.valid && s.rsp.ready then s.deliver
  else if s.req.valid && s.req.ready && s.hasRoom then .next s.accept
  else if s.rsp.valid then .next s.driveReady
  else
    match s.q with
    | [] => .next s.driveReady
    | e :: _ => runHead s e

/-- A request as the ADDR_W-bit ports carry it (R25, R26). -/
def clipRequest (addrW : Nat) (r : Request) : Request :=
  { r with base := r.base % 2 ^ addrW, len := r.len % 2 ^ addrW }

/-- Mark every in-flight request that reads this address (R66; log 13). -/
def markWindow (addrW a : Nat) (q : List Entry) : List Entry :=
  q.map fun e => if (readWindow addrW e.req).contains a then { e with disturbed := true } else e

/-- Another agent writes one byte of the buffer memory (R65, R66). -/
def State.storeByte (s : State) (a : Nat) (b : Byte) : State :=
  (s.withMem (memStore s.mem (a % 2 ^ s.cfg.addrW) b)).withQueue
    (markWindow s.cfg.addrW (a % 2 ^ s.cfg.addrW) s.q)

/-- The memory answers the outstanding read, from the bytes it holds now (R37, R59; log 17, log 32). -/
def State.memAnswer (s : State) (err : Bool) : State :=
  if s.memPort.waiting then
    let bs := if err then none else memRead s.mem s.cfg.addrW s.memPort.addr s.memPort.nbytes.toNat
    s.withMemPort
      { s.memPort with
        waiting := false, rspValid := true, rspErr := bs.isNone
        rspData := laneData s.memPort.addr s.memPort.nbytes.toNat bs }
  else s

/-- The generic decoder answers the outstanding request with these two registers (R36; log 33). -/
def State.genAnswer (s : State) (ok : Bool) (v : Value) : State :=
  if s.gen.waiting then
    s.withGen { s.gen with waiting := false, rspValid := true, rspOk := ok, rspValue := v }
  else s

/-- The memory channel when reset is asserted: the engine drops what is outstanding; the memory still answers a read it has
taken, unless it is reset too, and that answer will be stale (R190, R191; log 20). Model's choice where R190 and R41 give no value:
`mem_rsp_valid` falls and MEM_RSP_DATA and MEM_RSP_ERR become 0, with `together` or without, as MEM_ADDR and MEM_NBYTES do (log 10). -/
def MemPort.onReset (p : MemPort) (together : Bool) : MemPort :=
  { MemPort.reset with
    reqReady := p.reqReady, prompt := p.prompt
    stale := if together then 0 else p.stale + p.waiting.toNat }

/-- The generic channel when reset is asserted, as `MemPort.onReset`. Model's choice where R190 and R41 give no value:
`gen_rsp_valid` falls and GEN_RSP_OK and GEN_RSP_VALUE become 0, with `together` or without, as the GEN request registers and
`gen_rsp_ready` do (log 10). -/
def GenPort.onReset (p : GenPort) (together : Bool) : GenPort :=
  { GenPort.reset with
    reqReady := p.reqReady, prompt := p.prompt, unit := p.unit
    stale := if together then 0 else p.stale + p.waiting.toNat }

/-- The reset input is asserted (R190): the queue is emptied, the engine's valid signals fall, and its other registers take the
values of reset; so do the answer registers of the two channels. Everything else that other agents drive or hold stays (log 10). -/
def State.assertReset (s : State) (together : Bool) : State :=
  { s with
    req := { s.req with ready := false }
    rsp := { s.rsp with valid := false, data := RspData.reset }
    q := [], memPort := s.memPort.onReset together, gen := s.gen.onReset together, inReset := true }

/-- One input from outside. -/
def applyInput (i : Input) (s : State) : Result :=
  match i with
  | .engineTurn => engineTurn s
  | .present r => .next (s.withReq { s.req with valid := true, fields := clipRequest s.cfg.addrW r })
  | .withdraw => .next (s.withReq { s.req with valid := false })
  | .rspReady b => .next (s.withRsp { s.rsp with ready := b })
  | .storeByte a b => .next (s.storeByte a b)
  | .breakByte a => .next (s.withMem (memErase s.mem (a % 2 ^ s.cfg.addrW)))
  | .memReady b => .next (s.withMemPort { s.memPort with reqReady := b })
  | .memPrompt b => .next (s.withMemPort { s.memPort with prompt := b })
  | .memAnswer err => .next (s.memAnswer err)
  | .memStaleAnswer => .next (s.withMemPort { s.memPort with stale := s.memPort.stale - 1 })
  | .genReady b => .next (s.withGen { s.gen with reqReady := b })
  | .genPrompt b => .next (s.withGen { s.gen with prompt := b })
  | .genAnswer =>
    let v := genericAnswer s.gen.unit s.mem s.cfg.addrW s.gen.call
    .next (s.genAnswer v.isSome (rspValueOf s.gen.call v))
  | .genAnswerWith ok v => .next (s.genAnswer ok v)
  | .genStaleAnswer => .next (s.withGen { s.gen with stale := s.gen.stale - 1 })
  | .attachGeneric u => .next (s.withGen { s.gen with unit := u })
  | .assertReset together => .next (s.assertReset together)
  | .releaseReset => .next (s.withInReset false)

/-- One step: the oldest input, or the engine's turn where there is none (log 6). -/
def stepOnce (s : State) : Result :=
  match s.inputs with
  | [] => engineTurn s
  | i :: rest => applyInput i (s.withInputs rest)

/-- The state in which the very next step executes a request with this control word and operands of zero: it is the head of the
queue, and nothing comes before it (log 18). -/
def State.withHeadWord (s : State) (c : CtrlWord) : State :=
  { s with
    req := { s.req with valid := false }
    rsp := { s.rsp with valid := false }
    q := { req := { base := 0, len := 0, offset := 0, ctrl := c }, disturbed := false } :: s.q.tail
    memPort := { s.memPort with reqValid := false, rspValid := false, waiting := false }
    gen := { s.gen with reqValid := false, rspValid := false, rspReady := false, waiting := false }
    inReset := false, inputs := [] }

end Sys2Proof.Machine
end

