-- ==== Sys2Proof/Machine/Step.lean ====
section
/-! DEFINITION. The step. -/

namespace Sys2Proof.Machine

/-- One step of the machine. -/
def step : State → Host.Outcome State Fault Refusal := stepOnce

/-- The state whose next step runs the instruction with these bits: the block fetches nothing (R22), so the word is the control
word of the request at the head of the queue (log 18). -/
def State.withFetchWord (s : State) (nbits w : Nat) : State :=
  s.withHeadWord (BitVec.ofNat 16 (w % 2 ^ nbits))

end Sys2Proof.Machine
end

