-- ==== Sys2Proof/Safety.lean ====
section
/-! DEFINITION. What counts as a safe run, and the spec's own `Execute` (40_bounds_dispatch.md R90) as a function of a request and
the memory, against which the machine is stated. -/

namespace Sys2Proof

/-- The bit width of an instruction (R73, R75). -/
def Instr.width : Instr → Nat
  | .ext8u _ => 8
  | .ext8s _ => 8
  | .ext16ub => 16
  | .ext16ul => 16
  | .ext16sb => 16
  | .ext16sl => 16
  | .ext32ub => 32
  | .ext32ul => 32
  | .ext32sb => 32
  | .ext32sl => 32
  | .ext64ub => 64
  | .ext64ul => 64
  | .ext64sb => 64
  | .ext64sl => 64
  | .extg w _ _ => w.toNat

/-- The sign flag of an instruction (R73, R75). -/
def Instr.signed : Instr → Bool
  | .ext8u _ => false
  | .ext8s _ => true
  | .ext16ub => false
  | .ext16ul => false
  | .ext16sb => true
  | .ext16sl => true
  | .ext32ub => false
  | .ext32ul => false
  | .ext32sb => true
  | .ext32sl => true
  | .ext64ub => false
  | .ext64ul => false
  | .ext64sb => true
  | .ext64sl => true
  | .extg _ sgn _ => sgn

/-- Does the instruction take the fast path (R73)? -/
def Instr.isFast : Instr → Bool
  | .ext8u _ => true
  | .ext8s _ => true
  | .ext16ub => true
  | .ext16ul => true
  | .ext16sb => true
  | .ext16sl => true
  | .ext32ub => true
  | .ext32ul => true
  | .ext32sb => true
  | .ext32sl => true
  | .ext64ub => true
  | .ext64ul => true
  | .ext64sb => true
  | .ext64sl => true
  | .extg _ _ _ => false

/-- The LE bit of an instruction's word (R73, R75). -/
def Instr.little : Instr → Bool
  | .ext8u le => le
  | .ext8s le => le
  | .ext16ub => false
  | .ext16ul => true
  | .ext16sb => false
  | .ext16sl => true
  | .ext32ub => false
  | .ext32ul => true
  | .ext32sb => false
  | .ext32sl => true
  | .ext64ub => false
  | .ext64ul => true
  | .ext64sb => false
  | .ext64sl => true
  | .extg _ _ le => le

/-- A request's address and length fit their ports (R25, R26). -/
def Request.fits (addrW : Nat) (r : Request) : Prop := r.base < 2 ^ addrW ∧ r.len < 2 ^ addrW

end Sys2Proof

namespace Sys2Proof.Machine

/-- The buffer memory is free and answers in the step that takes a read. -/
abbrev MemPort.answersNow (p : MemPort) : Prop :=
  p.reqReady = true ∧ p.prompt = true ∧ p.waiting = false ∧ p.rspValid = false

/-- The generic decoder is free and answers in the step that takes a request. -/
abbrev GenPort.answersNow (p : GenPort) : Prop :=
  p.reqReady = true ∧ p.prompt = true ∧ p.waiting = false ∧ p.rspValid = false

/-- The engine has something of its own on the memory channel. -/
abbrev MemPort.busy (p : MemPort) : Prop := p.reqValid = true ∨ p.waiting = true ∨ p.rspValid = true

/-- The engine has something of its own on the generic channel. -/
abbrev GenPort.busy (p : GenPort) : Prop := p.reqValid = true ∨ p.waiting = true ∨ p.rspValid = true

/-- The head of the queue is this entry, and nobody wrote the bytes it reads (R66). -/
abbrev State.headIs (s : State) (e : Entry) : Prop := s.q.head? = some e ∧ e.disturbed = false

/-- The engine's next move is to execute the head of the queue: no input comes first, reset is released, the response port is
free and no request is there to be accepted. -/
abbrev State.runsHead (s : State) : Prop :=
  s.inputs = [] ∧ s.inReset = false ∧ s.rsp.valid = false ∧ (s.req.valid && s.req.ready && s.hasRoom) = false

/-- The four stages of the fast path, as a function of WIDTH, SGN and LE (R111 to R113). -/
def fastResponse (w : Nat) (sgn le : Bool) (bs : List Byte) : Response :=
  let raw : BitVec w := if w = 8 ∨ le = false then beAssemble w bs else leAssemble w bs
  if w = 64 then
    if sgn && raw.msb then .fail .sign64 else .ok (zext64 raw) sgn
  else .ok (extend64 sgn raw) sgn

/-- `Execute` (R90): the response to a request, from its fields and the bytes of the buffer alone (R5). -/
def execute (addrW : Nat) (u : Config.GenericUnit) (m : Memory) (r : Request) : Response :=
  let w := ctrlWidth r.ctrl
  let n := w.toNat
  let total := 8 * r.len
  let off := r.offset.toNat
  let ea := (r.base + off / 8) % 2 ^ addrW
  if ctrlRsvd r.ctrl ≠ 0 ∨ n = 0 ∨ 64 < n then .fail .illegal
  else if total < off then .fail .bounds
  else if total - off < n then .fail .bounds
  else if off % 8 ≠ 0 then .fail .unaligned
  else if n = 8 ∨ n = 16 ∨ n = 32 ∨ n = 64 then
    match memRead m addrW ea (n / 8) with
    | none => .fail .busError
    | some bs => fastResponse n (ctrlSgn r.ctrl) (ctrlLe r.ctrl) bs
  else
    match genericAnswer u m addrW
        { ptr := ea, subOff := 0, width := w, le := ctrlLe r.ctrl, sgn := ctrlSgn r.ctrl, avail := r.len - off / 8 } with
    | none => .fail .genericFail
    | some v => .ok v (ctrlSgn r.ctrl)

/-- Byte `i` of the bytes read, `B[i]`. -/
def byteAt (bs : List Byte) (i : Nat) : Byte := bs.getD i 0

/-- The state after a fast-path request of `w` bits on its pre-checks and its read, the memory answering at once (R90, R110): the
response is `value` of the bytes read. -/
def fastOutcome (s : State) (e : Entry) (w : Nat) (value : List Byte → Response) : State :=
  let off := e.req.offset.toNat
  let ea := (e.req.base + off / 8) % 2 ^ s.cfg.addrW
  if 8 * e.req.len < off + w then s.respond (.fail .bounds)
  else if off % 8 ≠ 0 then s.respond (.fail .unaligned)
  else
    match memRead s.mem s.cfg.addrW ea (w / 8) with
    | none => (s.withMemPort (s.memPort.finish ea (w / 8) none)).respond (.fail .busError)
    | some bs => (s.withMemPort (s.memPort.finish ea (w / 8) (some bs))).respond (value bs)

/-- The state after an EXTG request, the decoder answering at once (R90, R150, R151). -/
def genericOutcome (s : State) (e : Entry) (w : BitVec 7) (sgn le : Bool) : State :=
  let off := e.req.offset.toNat
  let g : GenReq :=
    { ptr := (e.req.base + off / 8) % 2 ^ s.cfg.addrW, subOff := 0, width := w, le := le, sgn := sgn
      avail := e.req.len - off / 8 }
  if 8 * e.req.len < off + w.toNat then s.respond (.fail .bounds)
  else if off % 8 ≠ 0 then s.respond (.fail .unaligned)
  else
    match genericAnswer s.gen.unit s.mem s.cfg.addrW g with
    | none => (s.withGen (s.gen.finish g none)).respond (.fail .genericFail)
    | some v => (s.withGen (s.gen.finish g (some v))).respond (.ok v sgn)

/-- The `k` bytes that the low `8 k` bits of a value encode, most significant first. -/
def bigEndianBytes (k : Nat) (v : Value) : List Byte := (List.range k).map fun i => v.extractLsb' (8 * (k - 1 - i)) 8

/-- The `k` bytes that the low `8 k` bits of a value encode, least significant first. -/
def littleEndianBytes (k : Nat) (v : Value) : List Byte := (List.range k).map fun i => v.extractLsb' (8 * i) 8

/-- The response registers agree with one another (R30 to R33): RSP_OK is (RSP_CAUSE = 0), cause 7 does not occur, and a failure
carries no value and no tag. -/
def RspData.coherent (d : RspData) : Prop :=
  d.ok = decide (d.cause = 0) ∧ d.cause ≠ 7 ∧ (d.ok = false → d.signed = false ∧ d.value = 0)

/-- What holds of every state the machine reaches. -/
structure State.Inv (s : State) : Prop where
  /-- R7. -/
  addrW_pos : 1 ≤ s.cfg.addrW
  /-- R7. -/
  depth_pos : 1 ≤ s.cfg.pipeDepth
  /-- The memory is in its canonical form. -/
  mem_wf : Memory.wf s.mem = true
  /-- Every listed address exists (R38). -/
  mem_fits : ∀ c ∈ s.mem, c.1 < 2 ^ s.cfg.addrW
  /-- R25, R26. -/
  port_fits : s.req.fields.fits s.cfg.addrW
  /-- R40: an entry is a latched copy of the port. -/
  queue_fits : ∀ e ∈ s.q, e.req.fits s.cfg.addrW
  /-- R40. -/
  queue_bound : s.q.length ≤ s.cfg.pipeDepth
  /-- R40: `req_ready` is 0 whenever the queue is full. -/
  ready_room : s.req.ready = true → s.q.length < s.cfg.pipeDepth
  /-- A response on the port is the head's (R40). -/
  response_head : s.rsp.valid = true → s.q ≠ []
  /-- R30 to R33. -/
  response_coherent : s.rsp.data.coherent
  /-- R30 to R33, of every response delivered. -/
  received_coherent : ∀ d ∈ s.received, d.coherent
  /-- R190. -/
  reset_idle : s.inReset = true →
    s.q = [] ∧ s.rsp.valid = false ∧ s.memPort.reqValid = false ∧ s.gen.reqValid = false
  /-- A read is driven, then taken, then answered. -/
  mem_phases : (s.memPort.reqValid = true → s.memPort.waiting = false ∧ s.memPort.rspValid = false) ∧
    (s.memPort.waiting = true → s.memPort.rspValid = false)
  /-- The engine reads only for a request that takes the fast path, passed its pre-checks and has no response yet, and it reads
  exactly that request's bytes (R58, R61). Model's choices: the request is the head (log 34), and the read is one, of all W/8
  bytes (log 12). -/
  mem_traffic : s.memPort.busy → s.rsp.valid = false ∧ ∃ e i, s.q.head? = some e ∧ decode e.req.ctrl = .ok i ∧
    i.isFast = true ∧ precheck e.req i.width = none ∧
    s.memPort.addr = effAddr s.cfg.addrW e.req ∧ s.memPort.nbytes.toNat = i.width / 8
  /-- An answer without an error has a byte for each lane asked for, and one at least (R37: MEM_NBYTES is 1..8). -/
  mem_lanes : s.memPort.rspValid = true → s.memPort.rspErr = false →
    (laneBytes s.memPort.rspData s.memPort.nbytes.toNat).length = s.memPort.nbytes.toNat ∧ 1 ≤ s.memPort.nbytes.toNat
  /-- A generic request is driven, then taken, then answered. -/
  gen_phases : (s.gen.reqValid = true → s.gen.waiting = false ∧ s.gen.rspValid = false) ∧
    (s.gen.waiting = true → s.gen.rspValid = false)
  /-- The engine calls the decoder only for an EXTG that passed its pre-checks and has no response yet, with the values of R151.
  That it is the head is the model's choice (log 34). -/
  gen_traffic : s.gen.busy → s.rsp.valid = false ∧ ∃ e w sgn le, s.q.head? = some e ∧
    decode e.req.ctrl = .ok (.extg w sgn le) ∧ precheck e.req w.toNat = none ∧
    s.gen.call = genericRequest s.cfg.addrW e.req w sgn le

end Sys2Proof.Machine
end

