-- ==== Sys2Proof/Certificates/Slice0/Obligations.lean ====
section
/-! DEFINITION. What is to be proved of the machine. Each statement's docstring names the rule of the spec it formalises, or says
that it is the model's choice and names the log entry. -/

open Sys2Proof Sys2Proof.Machine

/-! ### Encoding -/

/-- R74, R75: no bit of a well-formed instruction is lost by encoding it and decoding its word. -/
def Obligations.DecodeOfEncodeIsTheInstruction : Prop :=
  ∀ i : Instr, i.wellFormed = true → decode (encode i) = .ok i

/-- R74, R75: each legal word has one meaning, and that instruction encodes to the word. -/
def Obligations.EncodeOfDecodeIsTheWord : Prop :=
  ∀ (c : CtrlWord) (i : Instr), decode c = .ok i → encode i = c ∧ i.wellFormed = true

/-- R75: the opcode map, row by row with its mask and match; EXTG applies last, to the widths of its set only. -/
def Obligations.DecodingFollowsTheOpcodeMap : Prop :=
  ∀ c : CtrlWord,
    (∀ le, decode c = .ok (.ext8u le) ↔ c &&& 0xFF7F = 0x0008 ∧ le = c.getLsbD 7) ∧
    (∀ le, decode c = .ok (.ext8s le) ↔ c &&& 0xFF7F = 0x0108 ∧ le = c.getLsbD 7) ∧
    (decode c = .ok .ext16ub ↔ c &&& 0xFFFF = 0x0010) ∧
    (decode c = .ok .ext16ul ↔ c &&& 0xFFFF = 0x0090) ∧
    (decode c = .ok .ext16sb ↔ c &&& 0xFFFF = 0x0110) ∧
    (decode c = .ok .ext16sl ↔ c &&& 0xFFFF = 0x0190) ∧
    (decode c = .ok .ext32ub ↔ c &&& 0xFFFF = 0x0020) ∧
    (decode c = .ok .ext32ul ↔ c &&& 0xFFFF = 0x00A0) ∧
    (decode c = .ok .ext32sb ↔ c &&& 0xFFFF = 0x0120) ∧
    (decode c = .ok .ext32sl ↔ c &&& 0xFFFF = 0x01A0) ∧
    (decode c = .ok .ext64ub ↔ c &&& 0xFFFF = 0x0040) ∧
    (decode c = .ok .ext64ul ↔ c &&& 0xFFFF = 0x00C0) ∧
    (decode c = .ok .ext64sb ↔ c &&& 0xFFFF = 0x0140) ∧
    (decode c = .ok .ext64sl ↔ c &&& 0xFFFF = 0x01C0) ∧
    (∀ w sgn le, decode c = .ok (.extg w sgn le) ↔
      c &&& 0xFE00 = 0x0000 ∧ w.setWidth 16 = c &&& 0x007F ∧ sgn = c.getLsbD 8 ∧ le = c.getLsbD 7 ∧
        1 ≤ w.toNat ∧ w.toNat ≤ 63 ∧ w.toNat ∉ [8, 16, 32])

/-- R76: which words are illegal, by the three ways a word can be so. -/
def Obligations.IllegalWordsAreTheReservedAndTheBadWidths : Prop :=
  ∀ c : CtrlWord, (∃ x, decode c = .error x) ↔
    (c >>> 9).toNat ≠ 0 ∨ (c &&& 0x007F).toNat = 0 ∨ 65 ≤ (c &&& 0x007F).toNat

/-- 95_test_vectors.md section 2.1: words written out from the encoding of R71. -/
def Obligations.SpecWordsDecodeAsListed : Prop :=
  decode 0b0000000000001000 = .ok (.ext8u false) ∧ decode 0b0000000110001000 = .ok (.ext8s true) ∧
  decode 0b0000000110010000 = .ok .ext16sl ∧ decode 0b0000000010100000 = .ok .ext32ul ∧
  decode 0b0000000101000000 = .ok .ext64sb ∧ decode 0b0000000110111111 = .ok (.extg 63 true true) ∧
  decode 0b0000000000000001 = .ok (.extg 1 false false) ∧ decode 0x0000 = .error .widthZero ∧
  decode 0x0041 = .error .widthOver64 ∧ decode 0x0208 = .error .reservedBits

/-- R77: the two words of each 8-bit instruction, with identical behaviour in every state. -/
def Obligations.EightBitInstructionsIgnoreTheLittleEndianBit : Prop :=
  decode 0x0008 = .ok (.ext8u false) ∧ decode 0x0088 = .ok (.ext8u true) ∧
  decode 0x0108 = .ok (.ext8s false) ∧ decode 0x0188 = .ok (.ext8s true) ∧
  ∀ s : State, exec (.ext8u true) s = exec (.ext8u false) s ∧ exec (.ext8s true) s = exec (.ext8s false) s

/-- R80: the assembler encodes the operands as written and the word of the row (EXT8U and EXT8S with LE = 0), rejects an operand
outside its range and a mnemonic that is none of the fourteen, and never emits an illegal control word. -/
def Obligations.AssemblerEmitsOnlyLegalRequests : Prop :=
  let rows : List (String × CtrlWord) :=
    [("EXT8U", 0x0008), ("EXT8S", 0x0108), ("EXT16UB", 0x0010), ("EXT16UL", 0x0090), ("EXT16SB", 0x0110),
     ("EXT16SL", 0x0190), ("EXT32UB", 0x0020), ("EXT32UL", 0x00A0), ("EXT32SB", 0x0120), ("EXT32SL", 0x01A0),
     ("EXT64UB", 0x0040), ("EXT64UL", 0x00C0), ("EXT64SB", 0x0140), ("EXT64SL", 0x01C0)]
  (∀ (addrW : Nat) (l : AsmLine) (r : Request), assemble addrW l = some r →
    r.fits addrW ∧ ∃ i : Instr, decode r.ctrl = .ok i ∧ i.wellFormed = true) ∧
  (∀ (addrW base len off : Nat) (m : String) (c : CtrlWord), (m, c) ∈ rows →
    base < 2 ^ addrW → len < 2 ^ addrW → off < 2 ^ 64 →
    assemble addrW (.fast m base len off) =
      some { base := base, len := len, offset := BitVec.ofNat 64 off, ctrl := c }) ∧
  (∀ (addrW base len off : Nat) (m : String), m ∉ rows.map Prod.fst → assemble addrW (.fast m base len off) = none) ∧
  (∀ (addrW base len off w : Nat) (m : String) (sgn le : Bool),
    2 ^ addrW ≤ base ∨ 2 ^ addrW ≤ len ∨ 2 ^ 64 ≤ off →
    assemble addrW (.fast m base len off) = none ∧ assemble addrW (.extg w sgn le base len off) = none ∧
      assemble addrW (.ext w sgn le base len off) = none) ∧
  (∀ (addrW base len off w : Nat) (sgn le : Bool), w = 0 ∨ w = 8 ∨ w = 16 ∨ w = 32 ∨ 64 ≤ w →
    assemble addrW (.extg w sgn le base len off) = none)

/-- R81: the pseudo-instruction EXT expands to exactly one real request, whose control word is
`(S ? 0x100 : 0) | (L ? 0x80 : 0) | w`; it is rejected for a width outside 1..64. -/
def Obligations.PseudoExtExpandsToOneRequest : Prop :=
  ∀ (addrW w : Nat) (sgn le : Bool) (base len off : Nat),
    base < 2 ^ addrW → len < 2 ^ addrW → off < 2 ^ 64 →
    (1 ≤ w → w ≤ 64 →
      assemble addrW (.ext w sgn le base len off) =
        some { base := base, len := len, offset := BitVec.ofNat 64 off
               ctrl := (if sgn then 0x100 else 0) ||| (if le then 0x80 else 0) ||| BitVec.ofNat 16 w } ∧
      ∃ i : Instr, decode ((if sgn then 0x100 else 0) ||| (if le then 0x80 else 0) ||| BitVec.ofNat 16 w) = .ok i ∧
        i.width = w ∧ i.signed = sgn ∧ i.little = le ∧ (i.isFast = true ↔ w = 8 ∨ w = 16 ∨ w = 32 ∨ w = 64)) ∧
    (w = 0 ∨ 64 < w → assemble addrW (.ext w sgn le base len off) = none)

/-! ### The pre-checks -/

/-- R92: the bounds check fails exactly when OFFSET + W > 8 LEN in ℕ; such a request is always an absence, whatever the ports and
the memory hold; the last bit a passing request reads has index OFFSET + W - 1 ≤ 8 LEN - 1. -/
def Obligations.BoundsFailExactlyWhenTheRangeExceedsTheBuffer : Prop :=
  (∀ (r : Request) (w : Nat), 1 ≤ w → (precheck r w = some .bounds ↔ 8 * r.len < r.offset.toNat + w)) ∧
  (∀ (i : Instr) (s : State) (e : Entry), i.wellFormed = true → s.q.head? = some e →
    8 * e.req.len < e.req.offset.toNat + i.width → exec i s = .next (s.respond (.fail .bounds))) ∧
  (∀ (r : Request) (w : Nat), 1 ≤ w → precheck r w = none →
    r.offset.toNat + w - 1 ≤ 8 * r.len - 1)

/-- R93: an offset past the buffer fails for every width; no subtraction wraps. The last clause is the rule's own example. -/
def Obligations.OffsetPastTheBufferNeverWraps : Prop :=
  (∀ (r : Request) (w : Nat), 8 * r.len < r.offset.toNat → precheck r w = some .bounds) ∧
  (∀ (base : Nat) (c : CtrlWord), precheck { base := base, len := 5, offset := 0xFFFFFFFFFFFFFFF8, ctrl := c } 8 = some .bounds)

/-- R94: an in-bounds request whose offset is no multiple of 8 fails with UNALIGNED, for every instruction, and nothing but the
response port changes; in bounds or not, such an offset always gives an absence. -/
def Obligations.UnalignedOffsetFailsForEveryInstruction : Prop :=
  ∀ (i : Instr) (s : State) (e : Entry), i.wellFormed = true → s.q.head? = some e → e.req.offset.toNat % 8 ≠ 0 →
    (e.req.offset.toNat + i.width ≤ 8 * e.req.len → exec i s = .next (s.respond (.fail .unaligned))) ∧
    ∃ c, exec i s = .next (s.respond (.fail c))

/-- R96, R61: illegal word, then bounds, then alignment; the first that fails gives the response, and the whole step is that
response: no memory is read and no generic request is sent. -/
def Obligations.PrechecksRunInOrderAndReadNothing : Prop :=
  ∀ (s : State) (e : Entry), s.runsHead → s.q.head? = some e →
    ((∃ x, decode e.req.ctrl = .error x) → step s = .next (s.respond (.fail .illegal))) ∧
    (∀ i, decode e.req.ctrl = .ok i → 8 * e.req.len < e.req.offset.toNat + i.width →
      step s = .next (s.respond (.fail .bounds))) ∧
    (∀ i, decode e.req.ctrl = .ok i → e.req.offset.toNat + i.width ≤ 8 * e.req.len → e.req.offset.toNat % 8 ≠ 0 →
      step s = .next (s.respond (.fail .unaligned)))

/-- R99: the boundary cases of the bounds check. -/
def Obligations.BoundsCheckBoundaryCases : Prop :=
  ∀ (r : Request) (w : Nat), 1 ≤ w → w ≤ 64 →
    (r.offset.toNat = 8 * r.len → precheck r w = some .bounds) ∧
    (r.offset.toNat + w = 8 * r.len → precheck r w ≠ some .bounds) ∧
    (r.len = 0 → precheck r w = some .bounds) ∧
    (r.offset.toNat = 2 ^ 64 - 1 → 8 * r.len < 2 ^ 64 - 1 + w → precheck r w = some .bounds) ∧
    (r.offset.toNat = 2 ^ 64 - 1 → 2 ^ 64 - 1 + w ≤ 8 * r.len → precheck r w = some .unaligned) ∧
    (∀ addrW, 2 ^ 64 - 1 + w ≤ 8 * r.len → r.fits addrW → 62 ≤ addrW) ∧
    (precheck r w = none → r.offset.toNat / 8 + (w + 7) / 8 ≤ r.len)

/-! ### The fast path -/

/-- R116, R117: EXT8U and EXT8S, with both words of each. The memory channel in the next state is the model's choice: one read of W/8
bytes (log 12), its registers kept after it (log 15, log 16), in one step (log 5). -/
def Obligations.ExtractEightBits : Prop :=
  decode 0x0008 = .ok (.ext8u false) ∧ decode 0x0088 = .ok (.ext8u true) ∧
  decode 0x0108 = .ok (.ext8s false) ∧ decode 0x0188 = .ok (.ext8s true) ∧
  ∀ (s : State) (e : Entry) (le : Bool), s.headIs e → s.memPort.answersNow →
    exec (.ext8u le) s = .next (fastOutcome s e 8 fun bs => .ok ((byteAt bs 0).setWidth 64) false) ∧
    exec (.ext8s le) s = .next (fastOutcome s e 8 fun bs => .ok ((byteAt bs 0).signExtend 64) true)

/-- R118 to R121: the 16-bit instructions. The memory channel in the next state is the model's choice (log 5, log 12, log 15,
log 16). -/
def Obligations.ExtractSixteenBits : Prop :=
  decode 0x0010 = .ok .ext16ub ∧ decode 0x0090 = .ok .ext16ul ∧
  decode 0x0110 = .ok .ext16sb ∧ decode 0x0190 = .ok .ext16sl ∧
  ∀ (s : State) (e : Entry), s.headIs e → s.memPort.answersNow →
    exec .ext16ub s = .next (fastOutcome s e 16 fun bs => .ok ((byteAt bs 0 ++ byteAt bs 1).setWidth 64) false) ∧
    exec .ext16ul s = .next (fastOutcome s e 16 fun bs => .ok ((byteAt bs 1 ++ byteAt bs 0).setWidth 64) false) ∧
    exec .ext16sb s = .next (fastOutcome s e 16 fun bs => .ok ((byteAt bs 0 ++ byteAt bs 1).signExtend 64) true) ∧
    exec .ext16sl s = .next (fastOutcome s e 16 fun bs => .ok ((byteAt bs 1 ++ byteAt bs 0).signExtend 64) true)

/-- R122 to R125: the 32-bit instructions. The memory channel in the next state is the model's choice (log 5, log 12, log 15,
log 16). -/
def Obligations.ExtractThirtyTwoBits : Prop :=
  decode 0x0020 = .ok .ext32ub ∧ decode 0x00A0 = .ok .ext32ul ∧
  decode 0x0120 = .ok .ext32sb ∧ decode 0x01A0 = .ok .ext32sl ∧
  ∀ (s : State) (e : Entry), s.headIs e → s.memPort.answersNow →
    exec .ext32ub s = .next (fastOutcome s e 32 fun bs =>
      .ok ((byteAt bs 0 ++ byteAt bs 1 ++ byteAt bs 2 ++ byteAt bs 3).setWidth 64) false) ∧
    exec .ext32ul s = .next (fastOutcome s e 32 fun bs =>
      .ok ((byteAt bs 3 ++ byteAt bs 2 ++ byteAt bs 1 ++ byteAt bs 0).setWidth 64) false) ∧
    exec .ext32sb s = .next (fastOutcome s e 32 fun bs =>
      .ok ((byteAt bs 0 ++ byteAt bs 1 ++ byteAt bs 2 ++ byteAt bs 3).signExtend 64) true) ∧
    exec .ext32sl s = .next (fastOutcome s e 32 fun bs =>
      .ok ((byteAt bs 3 ++ byteAt bs 2 ++ byteAt bs 1 ++ byteAt bs 0).signExtend 64) true)

/-- R126 to R129: the 64-bit instructions; the signed ones reject a pattern whose bit 63 is set, which is bit 7 of the most
significant byte. The memory channel in the next state is the model's choice (log 5, log 12, log 15, log 16). -/
def Obligations.ExtractSixtyFourBits : Prop :=
  decode 0x0040 = .ok .ext64ub ∧ decode 0x00C0 = .ok .ext64ul ∧
  decode 0x0140 = .ok .ext64sb ∧ decode 0x01C0 = .ok .ext64sl ∧
  ∀ (s : State) (e : Entry), s.headIs e → s.memPort.answersNow →
    exec .ext64ub s = .next (fastOutcome s e 64 fun bs =>
      .ok (byteAt bs 0 ++ byteAt bs 1 ++ byteAt bs 2 ++ byteAt bs 3 ++
        byteAt bs 4 ++ byteAt bs 5 ++ byteAt bs 6 ++ byteAt bs 7) false) ∧
    exec .ext64ul s = .next (fastOutcome s e 64 fun bs =>
      .ok (byteAt bs 7 ++ byteAt bs 6 ++ byteAt bs 5 ++ byteAt bs 4 ++
        byteAt bs 3 ++ byteAt bs 2 ++ byteAt bs 1 ++ byteAt bs 0) false) ∧
    exec .ext64sb s = .next (fastOutcome s e 64 fun bs =>
      if (byteAt bs 0).getLsbD 7 then .fail .sign64
      else .ok (byteAt bs 0 ++ byteAt bs 1 ++ byteAt bs 2 ++ byteAt bs 3 ++
        byteAt bs 4 ++ byteAt bs 5 ++ byteAt bs 6 ++ byteAt bs 7) true) ∧
    exec .ext64sl s = .next (fastOutcome s e 64 fun bs =>
      if (byteAt bs 7).getLsbD 7 then .fail .sign64
      else .ok (byteAt bs 7 ++ byteAt bs 6 ++ byteAt bs 5 ++ byteAt bs 4 ++
        byteAt bs 3 ++ byteAt bs 2 ++ byteAt bs 1 ++ byteAt bs 0) true)

/-- R64, R174: what a fast-path instruction leaves unchanged, in every state: all but the response registers and their valid
signal, the memory channel and the model's counter of free responses. -/
def Obligations.FastPathFrame : Prop :=
  ∀ (i : Instr) (s t : State), i.isFast = true → exec i s = .next t →
    t.cfg = s.cfg ∧ t.req = s.req ∧ t.rsp.ready = s.rsp.ready ∧ t.q = s.q ∧ t.gen = s.gen ∧
    t.inReset = s.inReset ∧ t.received = s.received ∧ t.inputs = s.inputs ∧
    t.memPort.reqReady = s.memPort.reqReady ∧ t.memPort.prompt = s.memPort.prompt ∧ t.memPort.stale = s.memPort.stale ∧
    ∀ a : Nat, memByte t.mem a = memByte s.mem a

/-- R64, R150, R174: the frame of EXTG: all but the response registers and their valid signal, the generic channel and the model's
counter of free responses. The engine itself reads no memory. -/
def Obligations.GenericPathFrame : Prop :=
  ∀ (w : BitVec 7) (sgn le : Bool) (s t : State), exec (.extg w sgn le) s = .next t →
    t.cfg = s.cfg ∧ t.req = s.req ∧ t.rsp.ready = s.rsp.ready ∧ t.q = s.q ∧ t.memPort = s.memPort ∧
    t.inReset = s.inReset ∧ t.received = s.received ∧ t.inputs = s.inputs ∧
    t.gen.reqReady = s.gen.reqReady ∧ t.gen.prompt = s.gen.prompt ∧ t.gen.stale = s.gen.stale ∧
    t.gen.unit = s.gen.unit ∧
    ∀ a : Nat, memByte t.mem a = memByte s.mem a

/-- R114: a signed and an unsigned result from the same bytes agree below the width; above it the one has sign copies and the
other zeros. -/
def Obligations.SignedAndUnsignedAgreeBelowTheWidth : Prop :=
  ∀ (u v : Instr) (s t t' : State) (e : Entry),
    u.isFast = true → v.isFast = true → u.signed = false → v.signed = true →
    u.width = v.width → u.little = v.little → s.headIs e → s.memPort.answersNow →
    exec u s = .next t → exec v s = .next t' → t.rsp.data.ok = true → t'.rsp.data.ok = true →
    (∀ j, j < u.width → t.rsp.data.value.getLsbD j = t'.rsp.data.value.getLsbD j) ∧
    (∀ j, u.width ≤ j → j < 64 → t.rsp.data.value.getLsbD j = false ∧
      t'.rsp.data.value.getLsbD j = t'.rsp.data.value.getLsbD (u.width - 1))

/-- R113, C9: no request of 64 bits ever yields a negative signed value, whether or not its bytes were written in flight. -/
def Obligations.SignedSixtyFourBitResultsAreNonNegative : Prop :=
  ∀ (i : Instr) (s t : State) (e : Entry), i = .ext64sb ∨ i = .ext64sl → s.q.head? = some e → s.rsp.valid = false →
    exec i s = .next t → t.rsp.valid = true → t.rsp.data.ok = true →
    t.rsp.data.signed = true ∧ 0 ≤ t.rsp.data.value.toInt

/-- R130: re-encoding the low W bits of a fast-path value in the same byte order gives back the bytes read. -/
def Obligations.ReencodingAValueGivesTheBytesBack : Prop :=
  ∀ (i : Instr) (s t : State) (e : Entry), i.isFast = true → s.headIs e → s.memPort.answersNow →
    exec i s = .next t → t.rsp.data.ok = true → precheck e.req i.width = none →
    ∃ bs, memRead s.mem s.cfg.addrW (effAddr s.cfg.addrW e.req) (i.width / 8) = some bs ∧
      (if i.little && i.width != 8 then littleEndianBytes else bigEndianBytes) (i.width / 8) t.rsp.data.value = bs

/-- R55: a little-endian reading of bytes is the big-endian reading of the bytes reversed. -/
def Obligations.LittleEndianIsBigEndianReversed : Prop :=
  ∀ (w : Nat) (bs : List Byte), leAssemble w bs = beAssemble w bs.reverse

/-- R131: a fast-path response depends only on W, on LE when W > 8, on SGN and on the bytes at `ea`. -/
def Obligations.FastResponseDependsOnlyOnTheBytesRead : Prop :=
  ∀ (i j : Instr) (s s' : State) (e e' : Entry),
    i.isFast = true → j.isFast = true → i.width = j.width → i.signed = j.signed → (8 < i.width → i.little = j.little) →
    s.headIs e → s'.headIs e' → s.memPort.answersNow → s'.memPort.answersNow →
    precheck e.req i.width = none → precheck e'.req i.width = none →
    memRead s.mem s.cfg.addrW (effAddr s.cfg.addrW e.req) (i.width / 8) =
      memRead s'.mem s'.cfg.addrW (effAddr s'.cfg.addrW e'.req) (i.width / 8) →
    ∃ t t', exec i s = .next t ∧ exec j s' = .next t' ∧ t.rsp.data = t'.rsp.data

/-- R13, R9: the integer a fast-path value denotes is the W-bit pattern read unsigned or in two's complement. -/
def Obligations.FastValueDenotesItsPattern : Prop :=
  ∀ (i : Instr) (s t : State) (e : Entry) (bs : List Byte), i.isFast = true → s.headIs e → s.memPort.answersNow →
    precheck e.req i.width = none →
    memRead s.mem s.cfg.addrW (effAddr s.cfg.addrW e.req) (i.width / 8) = some bs →
    exec i s = .next t → t.rsp.data.ok = true →
    let raw : BitVec i.width := if i.little && i.width != 8 then leAssemble i.width bs else beAssemble i.width bs
    t.rsp.data.meaning = some (if i.signed then raw.toInt else (raw.toNat : Int))

/-! ### Ports that do not answer at once -/

/-- R200, I15: a fast-path request whose read is not answered waits, in each of the three ways, and gets no response. That the read is
one, of W/8 bytes, and that it is taken in one step, are the model's choices (log 5, log 12). -/
def Obligations.FastPathWaitsForTheMemory : Prop :=
  ∀ (i : Instr) (s : State) (e : Entry), i.isFast = true → s.q.head? = some e → precheck e.req i.width = none →
    s.memPort.rspValid = false →
    (s.memPort.waiting = true → exec i s = .next s) ∧
    (s.memPort.waiting = false → s.memPort.reqReady = false →
      exec i s = .next (s.withMemPort (s.memPort.drive (effAddr s.cfg.addrW e.req) (i.width / 8)))) ∧
    (s.memPort.waiting = false → s.memPort.reqReady = true → s.memPort.prompt = false →
      exec i s = .next (s.withMemPort (s.memPort.take (effAddr s.cfg.addrW e.req) (i.width / 8))))

/-- R37, R59, R110: an answer that has come completes the request: an error is BUS_ERROR, bytes give the instruction's response. The
channel's other registers keep their values, which is the model's choice (log 16). -/
def Obligations.LateMemoryAnswerCompletesTheRequest : Prop :=
  ∀ (i : Instr) (s : State) (e : Entry), i.isFast = true → s.headIs e → precheck e.req i.width = none →
    s.memPort.rspValid = true →
    exec i s = .next ((s.withMemPort { s.memPort with rspValid := false }).respond
      (if s.memPort.rspErr then .fail .busError else 
        fastResponse i.width i.signed i.little (laneBytes s.memPort.rspData (i.width / 8))))

/-- R199, R60: how late the memory answers does not change the response. A prompt memory answers in one step and a slow one reads when
it answers: the model's choices (log 5, log 17). -/
def Obligations.MemoryLatencyDoesNotChangeTheResponse : Prop :=
  ∀ (i : Instr) (s : State) (e : Entry), i.isFast = true → s.headIs e → precheck e.req i.width = none →
    s.memPort.answersNow →
    ∃ t u v, exec i s = .next t ∧ exec i (s.withMemPort { s.memPort with prompt := false }) = .next u ∧
      exec i (u.memAnswer false) = .next v ∧ v.rsp = t.rsp ∧ t.rsp.valid = true ∧ u.rsp = s.rsp

/-- R200, I15: an EXTG whose request is not answered waits, in each of the three ways, and gets no response. That `gen_rsp_ready` rises
when the decoder takes the request is the model's choice (log 25), and so is the step in which it does (log 5). -/
def Obligations.GenericPathWaitsForTheDecoder : Prop :=
  ∀ (w : BitVec 7) (sgn le : Bool) (s : State) (e : Entry), s.q.head? = some e → precheck e.req w.toNat = none →
    s.gen.rspValid = false →
    (s.gen.waiting = true → exec (.extg w sgn le) s = .next s) ∧
    (s.gen.waiting = false → s.gen.reqReady = false →
      exec (.extg w sgn le) s =
        .next (s.withGen (s.gen.drive (genericRequest s.cfg.addrW e.req w sgn le)))) ∧
    (s.gen.waiting = false → s.gen.reqReady = true → s.gen.prompt = false →
      exec (.extg w sgn le) s =
        .next (s.withGen (s.gen.take (genericRequest s.cfg.addrW e.req w sgn le))))

/-! ### The generic path -/

/-- R150: EXTG, for every width of its set and both flags: its word, its assembler line and its effect, the decoder answering in
the same step. The generic channel in the next state is the model's choice: `gen_rsp_ready` low (log 25), the GEN registers kept
(log 16), an open GEN_RSP_VALUE on absence (log 33), in one step (log 5). -/
def Obligations.ExtractThroughTheGenericDecoder : Prop :=
  ∀ (w : BitVec 7) (sgn le : Bool), genericWidth w = true →
    decode ((if sgn then 0x100 else 0) ||| (if le then 0x80 else 0) ||| w.setWidth 16) = .ok (.extg w sgn le) ∧
    (∀ addrW base len off : Nat, base < 2 ^ addrW → len < 2 ^ addrW → off < 2 ^ 64 →
      assemble addrW (.extg w.toNat sgn le base len off) =
        some { base := base, len := len, offset := BitVec.ofNat 64 off
               ctrl := (if sgn then 0x100 else 0) ||| (if le then 0x80 else 0) ||| w.setWidth 16 }) ∧
    ∀ (s : State) (e : Entry), s.headIs e → s.gen.answersNow →
      exec (.extg w sgn le) s = .next (genericOutcome s e w sgn le)

/-- R152, I7: an answer that has come on the generic channel passes through unchanged, whatever the decoder answered, with the
request's own tag; absence becomes GENERIC_FAIL. That `gen_rsp_ready` falls then, and that the channel's other registers keep their
values, is the model's choice (log 16, log 25). -/
def Obligations.GenericAnswerPassesThroughUnchanged : Prop :=
  ∀ (w : BitVec 7) (sgn le : Bool) (s : State) (e : Entry), s.headIs e → precheck e.req w.toNat = none →
    s.gen.rspValid = true →
    exec (.extg w sgn le) s = .next ((s.withGen { s.gen with rspValid := false, rspReady := false }).respond
      (if s.gen.rspOk then .ok s.gen.rspValue sgn else .fail .genericFail))

/-- R153, law L1: a unit answers absence exactly for a width of 0 or above 64, a range longer than AVAIL, or a read error. -/
def Obligations.GenericUnitsMeetTheRangeLaw : Prop :=
  ∀ (u : Config.GenericUnit) (m : Memory) (addrW : Nat) (g : GenReq),
    genericAnswer u m addrW g = none ↔
      g.width.toNat = 0 ∨ 64 < g.width.toNat ∨ g.avail < (g.subOff.toNat + g.width.toNat + 7) / 8 ∨
        memRead m addrW g.ptr ((g.subOff.toNat + g.width.toNat + 7) / 8) = none

/-- R154, law L2: at a byte boundary, a width of whole bytes below 64 gives what the fast-path stages would. -/
def Obligations.GenericUnitsMeetTheByteMultipleLaw : Prop :=
  ∀ (u : Config.GenericUnit) (m : Memory) (addrW : Nat) (g : GenReq) (bs : List Byte),
    g.subOff = 0 → g.width.toNat % 8 = 0 → 0 < g.width.toNat → g.width.toNat < 64 → g.width.toNat / 8 ≤ g.avail →
    memRead m addrW g.ptr (g.width.toNat / 8) = some bs →
    let raw : BitVec g.width.toNat :=
      if g.le then leAssemble g.width.toNat bs else beAssemble g.width.toNat bs
    genericAnswer u m addrW g = some (if g.sgn then raw.signExtend 64 else raw.setWidth 64)

/-- R155, law L3: values are zero- or sign-extended from the width, and the low bits depend only on the bits of the range, on LE and
on the width. -/
def Obligations.GenericUnitsMeetTheExtensionLaw : Prop :=
  (∀ (u : Config.GenericUnit) (m : Memory) (addrW : Nat) (g : GenReq) (v : Value), g.width.toNat < 64 →
    genericAnswer u m addrW g = some v →
    (g.sgn = false → v.toNat < 2 ^ g.width.toNat) ∧
    (g.sgn = true → v = (v.setWidth g.width.toNat).signExtend 64 ∧
      -(2 ^ (g.width.toNat - 1) : Int) ≤ v.toInt ∧ v.toInt < 2 ^ (g.width.toNat - 1))) ∧
  (∀ (u : Config.GenericUnit) (m m' : Memory) (addrW addrW' : Nat) (g g' : GenReq) (bs bs' : List Byte) (v v' : Value),
    g.width.toNat < 64 → g.width = g'.width → g.le = g'.le →
    memRead m addrW g.ptr ((g.subOff.toNat + g.width.toNat + 7) / 8) = some bs →
    memRead m' addrW' g'.ptr ((g'.subOff.toNat + g'.width.toNat + 7) / 8) = some bs' →
    streamBits bs g.subOff.toNat g.width.toNat = streamBits bs' g'.subOff.toNat g'.width.toNat →
    genericAnswer u m addrW g = some v → genericAnswer u m' addrW' g' = some v' →
    ∀ j, j < g.width.toNat → v.getLsbD j = v'.getLsbD j)

/-- R157: GenericRef agrees with the conforming unit wherever law L2 fixes the value. -/
def Obligations.ReferenceDecoderAgreesOnWholeBytes : Prop :=
  ∀ (bits : List Bool) (n : Nat) (le : Bool), bits.length = n → n % 8 = 0 → n < 64 →
    referencePattern bits n le = conformingPattern bits n le

/-- R160: for a request of the engine that passed its checks, a unit fails only on a read error, and so EXTG answers GENERIC_FAIL only
after one. -/
def Obligations.GenericUnitsFailOnlyOnAReadError : Prop :=
  ∀ (u : Config.GenericUnit) (m : Memory) (addrW : Nat) (r : Request) (w : BitVec 7) (sgn le : Bool),
    genericWidth w = true → precheck r w.toNat = none →
    (w.toNat + 7) / 8 ≤ (genericRequest addrW r w sgn le).avail ∧
    (genericAnswer u m addrW (genericRequest addrW r w sgn le) = none ↔
      memRead m addrW (effAddr addrW r) ((w.toNat + 7) / 8) = none) ∧
    ∀ (s t : State) (e : Entry), e.req = r → s.headIs e → s.gen.answersNow → s.cfg.addrW = addrW → s.mem = m →
      exec (.extg w sgn le) s = .next t →
      (t.rsp.data.cause = 4 ↔ memRead m addrW (effAddr addrW r) ((w.toNat + 7) / 8) = none)

/-- R161: for 24, 40, 48 and 56 bits the response of EXTG is the one the fast-path stages would give. -/
def Obligations.WholeByteGenericWidthsAgreeWithTheFastPath : Prop :=
  ∀ (w : BitVec 7) (sgn le : Bool) (s : State) (e : Entry) (bs : List Byte),
    w = 24 ∨ w = 40 ∨ w = 48 ∨ w = 56 → s.headIs e → s.gen.answersNow → precheck e.req w.toNat = none →
    memRead s.mem s.cfg.addrW (effAddr s.cfg.addrW e.req) (w.toNat / 8) = some bs →
    ∃ t, exec (.extg w sgn le) s = .next t ∧ t.rsp.valid = true ∧
      t.rsp.data = (fastResponse w.toNat sgn le bs).data

/-! ### Memory -/

/-- R65: a byte that an agent has written is what is read, and every other byte is as before; the model's own `breakByte` makes
one address answer with an error and leaves the others (log 11, log 32). -/
def Obligations.StoredByteIsReadBack : Prop :=
  (∀ (s : State) (a : Nat) (b : Byte) (rest : List Input), s.inputs = .storeByte a b :: rest →
    ∃ t, step s = .next t ∧ ∀ x, memByte t.mem x = if x = a % 2 ^ s.cfg.addrW then some b else memByte s.mem x) ∧
  (∀ (s : State) (a : Nat) (rest : List Input), s.inputs = .breakByte a :: rest →
    ∃ t, step s = .next t ∧ ∀ x, memByte t.mem x = if x = a % 2 ^ s.cfg.addrW then none else memByte s.mem x)

/-- R64: the engine and the generic decoder write no memory: only another agent's write changes a byte. -/
def Obligations.NoStepOfTheBlockWritesMemory : Prop :=
  ∀ s t : State, step s = .next t →
    (∀ a b, s.inputs.head? ≠ some (.storeByte a b)) → (∀ a, s.inputs.head? ≠ some (.breakByte a)) → t.mem = s.mem

/-- R66: a write into the bytes that in-flight requests read marks exactly those requests, and changes no latched request. -/
def Obligations.WriteInFlightMarksItsReaders : Prop :=
  ∀ (s : State) (a : Nat) (b : Byte) (rest : List Input), s.inputs = .storeByte a b :: rest →
    ∃ t, step s = .next t ∧ t.q.map Entry.req = s.q.map Entry.req ∧
      ∀ (n : Nat) (e : Entry), s.q[n]? = some e →
        t.q[n]? = some { e with
          disturbed := e.disturbed || (readWindow s.cfg.addrW e.req).contains (a % 2 ^ s.cfg.addrW) }

/-- R66, I5: the response to a request whose bytes were written in flight: one of the four causes, and when OK a value extended from
W bits as SGN says, with bit 63 clear for a signed request of 64 bits. The port may answer in this step or have answered before, with
anything. Which of the responses it is is left open (log 13). -/
def Obligations.WriteInFlightLeavesABoundedResponse : Prop :=
  ∀ (i : Instr) (s : State) (e : Entry), i.wellFormed = true → s.q.head? = some e → e.disturbed = true →
    precheck e.req i.width = none →
    (i.isFast = true → s.memPort.answersNow ∨ s.memPort.rspValid = true) →
    (i.isFast = false → s.gen.answersNow ∨ s.gen.rspValid = true) →
    ∃ t, exec i s = .next t ∧ t.rsp.valid = true ∧
      (t.rsp.data.cause = 0 ∨ t.rsp.data.cause = 3 ∨ t.rsp.data.cause = 4 ∨ t.rsp.data.cause = 6) ∧
      (t.rsp.data.ok = true ↔ t.rsp.data.cause = 0) ∧
      (t.rsp.data.ok = true → t.rsp.data.signed = i.signed ∧
        ∃ raw : BitVec i.width, t.rsp.data.value = (if i.signed then raw.signExtend 64 else raw.setWidth 64) ∧
          (i.width = 64 → i.signed = true → t.rsp.data.value.getLsbD 63 = false))

/-! ### The queue and the ports -/

/-- R25, R26, R40, R196: a request is accepted with the values on the port at that moment; presenting other values changes the port
and no latched copy. Model's choices: the presentation ends at acceptance (log 7), `req_ready` is 1 whenever room is left (log 8),
and the engine accepts before it executes a waiting head (log 6). -/
def Obligations.AcceptanceLatchesThePort : Prop :=
  (∀ s : State, s.inputs = [] → s.inReset = false → (s.rsp.valid && s.rsp.ready) = false →
    s.req.valid = true → s.req.ready = true → s.q.length < s.cfg.pipeDepth →
    ∃ t, step s = .next t ∧ t.q = s.q ++ [{ req := s.req.fields, disturbed := false }] ∧
      t.req.valid = false ∧ t.req.ready = decide (s.q.length + 1 < s.cfg.pipeDepth) ∧
      t.rsp = s.rsp ∧ t.mem = s.mem ∧ t.memPort = s.memPort ∧ t.gen = s.gen ∧ t.received = s.received) ∧
  (∀ (s : State) (r : Request) (rest : List Input), s.inputs = .present r :: rest →
    ∃ t, step s = .next t ∧ t.q = s.q ∧ t.req.valid = true ∧ t.req.fields.offset = r.offset ∧
      t.req.fields.ctrl = r.ctrl ∧ t.req.fields.base = r.base % 2 ^ s.cfg.addrW ∧
      t.req.fields.len = r.len % 2 ^ s.cfg.addrW)

/-- R40, R197: a full queue accepts nothing, and `req_ready` is 0 after every transfer that leaves it full. -/
def Obligations.FullQueueAcceptsNothing : Prop :=
  ∀ s t : State, step s = .next t →
    (s.cfg.pipeDepth ≤ s.q.length → t.q.length ≤ s.q.length) ∧
    (t.q.length ≠ s.q.length → t.req.ready = true → t.q.length < s.cfg.pipeDepth)

/-- R29, R40: delivery hands the head's response to the requester and removes the head; a response with the reserved cause 7 is the
fault of I12 (log 21). That the engine delivers before it does anything else is the model's choice (log 6). -/
def Obligations.DeliveryRemovesTheHead : Prop :=
  ∀ s : State, s.inputs = [] → s.inReset = false → s.rsp.valid = true → s.rsp.ready = true →
    (s.rsp.data.cause ≠ 7 → ∃ t, step s = .next t ∧ t.received = s.received ++ [s.rsp.data] ∧ t.q = s.q.tail ∧
      t.rsp.valid = false ∧ t.mem = s.mem ∧ t.memPort = s.memPort ∧ t.gen = s.gen) ∧
    (s.rsp.data.cause = 7 → step s = .fault .reservedCause)

/-- R197, R29: while `rsp_ready` is 0 the head's response is held, whatever else happens but a reset: nothing is delivered, and no
request in flight is lost, changed or reordered. -/
def Obligations.ResponseIsHeldUntilTheRequesterIsReady : Prop :=
  ∀ s t : State, step s = .next t → s.rsp.valid = true → s.rsp.ready = false →
    (∀ b, s.inputs.head? ≠ some (.assertReset b)) →
    t.rsp.valid = true ∧ t.rsp.data = s.rsp.data ∧ t.received = s.received ∧
      ∃ more, t.q.map Entry.req = s.q.map Entry.req ++ more

/-- R29, R40, R200: with all agents answering, every request in flight gets exactly one response, in the order of acceptance, within
two steps each, and the response is the one `Execute` gives (R90). The bound of two steps rests on the model's choices of what one step
is (log 5) and of the engine's order of moves (log 6). -/
def Obligations.QueueDrainsInOrder : Prop :=
  ∀ s : State, s.inputs = [] → s.inReset = false → s.rsp.valid = false → s.rsp.ready = true → s.req.valid = false →
    s.memPort.answersNow → s.gen.answersNow → (∀ e ∈ s.q, e.disturbed = false) →
    ∃ t, Sys2Proof.core.run (2 * s.q.length) s = .next t ∧ t.q = [] ∧ t.rsp.valid = false ∧
      t.received = s.received ++ s.q.map (fun e => (execute s.cfg.addrW s.gen.unit s.mem e.req).data) ∧ t.mem = s.mem

/-- A step runs the decoded instruction: with no input before it, or on an `engineTurn` input, and nothing to transfer, step is exec
of what the head's control word decodes to; and so it is in the state the host builds for one word. The order of the engine's moves
(log 6) and the host's state (log 18) are the model's choices. -/
def Obligations.StepRunsTheDecodedInstruction : Prop :=
  (∀ (s : State) (e : Entry) (i : Instr), s.runsHead → s.q.head? = some e → decode e.req.ctrl = .ok i →
    step s = exec i s) ∧
  (∀ (s : State) (rest : List Input) (e : Entry) (i : Instr), s.inputs = .engineTurn :: rest → s.inReset = false →
    s.rsp.valid = false → (s.req.valid && s.req.ready && s.hasRoom) = false → s.q.head? = some e →
    decode e.req.ctrl = .ok i → step s = exec i (s.withInputs rest)) ∧
  (∀ (s : State) (w : Nat) (i : Instr), decodeTableWord 16 w = some i →
    step (s.withFetchWord 16 w) = exec i (s.withFetchWord 16 w))

/-- R90: the response to the head request is the one `Execute` gives, for every control word, buffer and memory, the ports answering
at once. -/
def Obligations.StepComputesExecute : Prop :=
  ∀ (s : State) (e : Entry), s.runsHead → s.headIs e → s.memPort.answersNow → s.gen.answersNow →
    ∃ t, step s = .next t ∧ t.rsp = { s.rsp with valid := true,
                                                 data := (execute s.cfg.addrW s.gen.unit s.mem e.req).data } ∧
      t.q = s.q ∧ t.mem = s.mem ∧ t.received = s.received

/-- R5, R98, R192: two machines with the same request at the head, the same decoder and ADDR_W, and the same bytes at the addresses the
request reads, answer it alike, whatever else they hold and whatever they did before. -/
def Obligations.ResponseDependsOnlyOnRequestAndBytes : Prop :=
  ∀ (s s' : State) (e e' : Entry), s.runsHead → s'.runsHead → s.headIs e → s'.headIs e' →
    s.memPort.answersNow → s'.memPort.answersNow → s.gen.answersNow → s'.gen.answersNow →
    e.req = e'.req → s.cfg.addrW = s'.cfg.addrW → s.gen.unit = s'.gen.unit →
    (∀ a ∈ readWindow s.cfg.addrW e.req, memByte s.mem a = memByte s'.mem a) →
    ∃ t t', step s = .next t ∧ step s' = .next t' ∧ t.rsp.data = t'.rsp.data ∧ t.rsp.valid = true ∧ t'.rsp.valid = true

/-! ### Whole-machine rules -/

/-- The invariant of every reachable state holds after each step: canonical memory, fields inside their ports, a bounded queue, coherent
response registers (RSP_OK = (RSP_CAUSE = 0), cause 7 never), and traffic on the two channels only for a request that passed its pre-checks
(R30 to R33, R40, R58, R61, R151, R190). Model's choices: that this request is the head, and one read or call is outstanding (log 34, where
R65 lets reads overlap), and that MEM_NBYTES is all W/8 bytes (log 12, where R60 lets the read be split). -/
def Obligations.StepKeepsTheInvariant : Prop :=
  ∀ s t : State, s.Inv → step s = .next t → t.Inv

/-- The invariant holds after reset, for all parameters of at least 1, so for the machine's own (R7, R41). -/
def Obligations.InvariantHoldsAtReset : Prop :=
  (∀ p : Config.Params, 1 ≤ p.addrW → 1 ≤ p.pipeDepth → (State.resetWith p).Inv) ∧ State.reset.Inv

/-- R170, R174: no step of a reachable machine stops: every outcome is an ordinary next state. In no state at all is there a
refusal. -/
def Obligations.NoStepStops : Prop :=
  (∀ s : State, s.Inv → ∃ t, step s = .next t) ∧
  (∀ (s : State) (r : Refusal), step s ≠ .refused r) ∧
  (∀ (s : State) (f : Fault), step s = .fault f → s.rsp.data.cause = 7)

/-- R7: no step changes a parameter. -/
def Obligations.ParametersNeverChange : Prop :=
  ∀ s t : State, step s = .next t → t.cfg = s.cfg

/-- R41, R190: the values the spec states for reset. -/
def Obligations.ResetStateAsTheSpecStates : Prop :=
  ∀ p : Config.Params, (State.resetWith p).q = [] ∧ (State.resetWith p).rsp.valid = false ∧
    (State.resetWith p).gen.reqValid = false ∧ (State.resetWith p).memPort.reqValid = false ∧
    (State.resetWith p).inReset = false

/-- R190: asserting reset empties the queue and drops the valid signals without any response; while it is asserted nothing is accepted;
after release the engine raises `req_ready` in its next turn, which is the model's finite time (log 8). -/
def Obligations.ResetDropsEverythingInFlight : Prop :=
  (∀ (s : State) (b : Bool) (rest : List Input), s.inputs = .assertReset b :: rest →
    ∃ t, step s = .next t ∧ t.q = [] ∧ t.rsp.valid = false ∧ t.gen.reqValid = false ∧ t.memPort.reqValid = false ∧
      t.received = s.received ∧ t.mem = s.mem ∧ t.inReset = true) ∧
  (∀ s t : State, step s = .next t → s.inReset = true → s.q = [] → t.q = [] ∧ t.received = s.received) ∧
  (∀ s : State, s.inputs = [] → s.inReset = false → s.q = [] → s.rsp.valid = false → s.req.ready = false →
    1 ≤ s.cfg.pipeDepth → ∃ t, step s = .next t ∧ t.req.ready = true)

/-- R191: after a reset that left the other agents running, what stood on the channels falls (log 10), what they still owe is stale, and a stale answer changes nothing but the
count of what is owed (log 20); an answer nobody waits for, of the memory or of either decoder input, is no answer at all. -/
def Obligations.StaleAnswersAreDiscarded : Prop :=
  (∀ (s : State) (rest : List Input), s.inputs = .assertReset false :: rest →
    ∃ t, step s = .next t ∧ t.memPort.waiting = false ∧ t.memPort.rspValid = false ∧ t.gen.waiting = false ∧
      t.gen.rspValid = false ∧ t.memPort.stale = s.memPort.stale + s.memPort.waiting.toNat ∧
      t.gen.stale = s.gen.stale + s.gen.waiting.toNat) ∧
  (∀ (s : State) (rest : List Input), s.inputs = .memStaleAnswer :: rest →
    step s = .next { s with inputs := rest, memPort := { s.memPort with stale := s.memPort.stale - 1 } }) ∧
  (∀ (s : State) (rest : List Input), s.inputs = .genStaleAnswer :: rest →
    step s = .next { s with inputs := rest, gen := { s.gen with stale := s.gen.stale - 1 } }) ∧
  (∀ (s : State) (err : Bool) (rest : List Input), s.inputs = .memAnswer err :: rest → s.memPort.waiting = false →
    step s = .next { s with inputs := rest }) ∧
  (∀ (s : State) (rest : List Input), s.inputs = .genAnswer :: rest → s.gen.waiting = false →
    step s = .next { s with inputs := rest }) ∧
  (∀ (s : State) (ok : Bool) (v : Value) (rest : List Input), s.inputs = .genAnswerWith ok v :: rest →
    s.gen.waiting = false → step s = .next { s with inputs := rest })

/-- R37, R59: the memory's late answer carries the bytes asked for, or an error if one of them is not readable or the memory fails. That
a slow memory reads when it answers is the model's choice (log 17). -/
def Obligations.MemoryAnswersTheOutstandingRead : Prop :=
  ∀ (s : State) (err : Bool) (rest : List Input), s.inputs = .memAnswer err :: rest → s.memPort.waiting = true →
    ∃ t, step s = .next t ∧ t.memPort.rspValid = true ∧ t.memPort.waiting = false ∧ t.rsp = s.rsp ∧ t.q = s.q ∧
      t.mem = s.mem ∧
      (err = true → t.memPort.rspErr = true) ∧
      (err = false → memRead s.mem s.cfg.addrW s.memPort.addr s.memPort.nbytes.toNat = none → t.memPort.rspErr = true) ∧
      (∀ bs, err = false → memRead s.mem s.cfg.addrW s.memPort.addr s.memPort.nbytes.toNat = some bs →
        t.memPort.rspErr = false ∧
        ∀ n, n < 8 → n < s.memPort.nbytes.toNat → t.memPort.rspData[n]? = bs[n]?)

/-- R36, R156, I7: the decoder's late answer is the attached unit's, or, for a decoder that need not meet its laws, any answer
(log 26). That the unit reads memory at the moment it answers is the model's choice (log 17). -/
def Obligations.DecoderAnswersTheOutstandingRequest : Prop :=
  (∀ (s : State) (rest : List Input), s.inputs = .genAnswer :: rest → s.gen.waiting = true →
    ∃ t, step s = .next t ∧ t.gen.rspValid = true ∧ t.gen.waiting = false ∧ t.rsp = s.rsp ∧ t.q = s.q ∧ t.mem = s.mem ∧
      (if t.gen.rspOk then some t.gen.rspValue else none) = genericAnswer s.gen.unit s.mem s.cfg.addrW s.gen.call) ∧
  (∀ (s : State) (ok : Bool) (v : Value) (rest : List Input), s.inputs = .genAnswerWith ok v :: rest →
    s.gen.waiting = true →
    ∃ t, step s = .next t ∧ t.gen.rspValid = true ∧ t.gen.waiting = false ∧ t.rsp = s.rsp ∧ t.q = s.q ∧ t.mem = s.mem ∧
      t.gen.rspOk = ok ∧ t.gen.rspValue = v)
end

