-- ==== Sys2Proof/Laws/Memory.lean ====
section
/-! SUPPORT. The buffer memory: reads after writes, and the canonical form, which every operation keeps. -/

namespace Sys2Proof.Machine

theorem memory_wf_cons (k : Nat) (v : Byte) (m : Memory) :
    Memory.wf ((k, v) :: m) = true ↔ (∀ c ∈ m, k < c.1) ∧ Memory.wf m = true := by
  simp [Memory.wf]

/-- A store puts nothing into the memory but the stored byte. -/
theorem mem_memStore {m : Memory} {a : Nat} {b : Byte} {c : Host.Cell} (h : c ∈ memStore m a b) :
    c = (a, b) ∨ c ∈ m := by
  induction m with
  | nil => simpa [memStore] using h
  | cons d m ih =>
    obtain ⟨k, v⟩ := d
    simp only [memStore] at h
    split_ifs at h <;> simp only [List.mem_cons] at h ⊢ <;> tauto

/-- An erasure puts nothing into the memory. -/
theorem mem_memErase {m : Memory} {a : Nat} {c : Host.Cell} (h : c ∈ memErase m a) : c ∈ m := by
  induction m with
  | nil => simp [memErase] at h
  | cons d m ih =>
    obtain ⟨k, v⟩ := d
    simp only [memErase] at h
    split_ifs at h <;> simp only [List.mem_cons] at h ⊢ <;> tauto

theorem memStore_wf {m : Memory} (a : Nat) (b : Byte) (h : Memory.wf m = true) : Memory.wf (memStore m a b) = true := by
  induction m with
  | nil => simp [memStore, Memory.wf]
  | cons d m ih =>
    obtain ⟨k, v⟩ := d
    obtain ⟨hk, hm⟩ := (memory_wf_cons k v m).1 h
    simp only [memStore]
    split_ifs with h1 h2
    · refine (memory_wf_cons _ _ _).2 ⟨fun c hc => ?_, h⟩
      rcases List.mem_cons.1 hc with rfl | hc
      · exact h1
      · exact lt_trans h1 (hk c hc)
    · subst h2
      exact (memory_wf_cons _ _ _).2 ⟨hk, hm⟩
    · refine (memory_wf_cons _ _ _).2 ⟨fun c hc => ?_, ih hm⟩
      rcases mem_memStore hc with rfl | hc
      · show k < a; omega
      · exact hk c hc

theorem memErase_wf {m : Memory} (a : Nat) (h : Memory.wf m = true) : Memory.wf (memErase m a) = true := by
  induction m with
  | nil => simpa [memErase] using h
  | cons d m ih =>
    obtain ⟨k, v⟩ := d
    obtain ⟨hk, hm⟩ := (memory_wf_cons k v m).1 h
    simp only [memErase]
    split_ifs
    · exact ih hm
    · exact (memory_wf_cons _ _ _).2 ⟨fun c hc => hk c (mem_memErase hc), ih hm⟩

/-- The memory after reset is canonical. -/
theorem reset_mem_wf (p : Config.Params) : Memory.wf (State.resetWith p).mem = true := rfl

/-- What `MemRead` answers has a byte for each address asked for. -/
theorem memRead_length {m : Memory} {w a n : Nat} {bs : List Byte} (h : memRead m w a n = some bs) : bs.length = n := by
  induction n generalizing a bs with
  | zero => simp only [memRead, Option.some.injEq] at h; simp [← h]
  | succ n ih =>
    simp only [memRead] at h
    split at h
    · rename_i h1 h2
      simp only [Option.some.injEq] at h
      simp [← h, ih h2]
    · cases h

/-- Byte `i` of what `MemRead` answers is the byte at `(a + i) mod 2^ADDR_W` (R10). -/
theorem memRead_getElem? {m : Memory} {w a n : Nat} {bs : List Byte} (h : memRead m w a n = some bs) (i : Nat)
    (hi : i < n) : bs[i]? = memByte m ((a + i) % 2 ^ w) := by
  induction n generalizing a bs i with
  | zero => omega
  | succ n ih =>
    simp only [memRead] at h
    split at h
    · rename_i b cs h1 h2
      simp only [Option.some.injEq] at h
      subst h
      cases i with
      | zero => simp [h1]
      | succ i =>
        have := ih h2 i (by omega)
        simpa [Nat.add_assoc, Nat.add_comm 1 i] using this
    · cases h

/-- `MemRead` depends on the memory only through the bytes at the addresses it reads. -/
theorem memRead_congr {m m' : Memory} {w a n : Nat}
    (h : ∀ i, i < n → memByte m ((a + i) % 2 ^ w) = memByte m' ((a + i) % 2 ^ w)) :
    memRead m w a n = memRead m' w a n := by
  induction n generalizing a with
  | zero => rfl
  | succ n ih =>
    have h0 := h 0 (by omega)
    have hn : memRead m w (a + 1) n = memRead m' w (a + 1) n :=
      ih fun i hi => by simpa [Nat.add_assoc, Nat.add_comm 1 i] using h (i + 1) (by omega)
    simp only [memRead, hn]
    simp only [Nat.add_zero] at h0
    rw [h0]

end Sys2Proof.Machine
end

