-- ==== Sys2Proof/Laws/State.lean ====
section
/-! SUPPORT. One lemma per field of the state and per update. -/

namespace Sys2Proof.Machine

variable (s : State)

@[simp] theorem State.withReq_cfg (p : ReqPort) : (s.withReq p).cfg = s.cfg := rfl
@[simp] theorem State.withReq_req (p : ReqPort) : (s.withReq p).req = p := rfl
@[simp] theorem State.withReq_rsp (p : ReqPort) : (s.withReq p).rsp = s.rsp := rfl
@[simp] theorem State.withReq_q (p : ReqPort) : (s.withReq p).q = s.q := rfl
@[simp] theorem State.withReq_mem (p : ReqPort) : (s.withReq p).mem = s.mem := rfl
@[simp] theorem State.withReq_memPort (p : ReqPort) : (s.withReq p).memPort = s.memPort := rfl
@[simp] theorem State.withReq_gen (p : ReqPort) : (s.withReq p).gen = s.gen := rfl
@[simp] theorem State.withReq_inReset (p : ReqPort) : (s.withReq p).inReset = s.inReset := rfl
@[simp] theorem State.withReq_received (p : ReqPort) : (s.withReq p).received = s.received := rfl
@[simp] theorem State.withReq_freeCount (p : ReqPort) : (s.withReq p).freeCount = s.freeCount := rfl
@[simp] theorem State.withReq_inputs (p : ReqPort) : (s.withReq p).inputs = s.inputs := rfl

@[simp] theorem State.withRsp_cfg (p : RspPort) : (s.withRsp p).cfg = s.cfg := rfl
@[simp] theorem State.withRsp_req (p : RspPort) : (s.withRsp p).req = s.req := rfl
@[simp] theorem State.withRsp_rsp (p : RspPort) : (s.withRsp p).rsp = p := rfl
@[simp] theorem State.withRsp_q (p : RspPort) : (s.withRsp p).q = s.q := rfl
@[simp] theorem State.withRsp_mem (p : RspPort) : (s.withRsp p).mem = s.mem := rfl
@[simp] theorem State.withRsp_memPort (p : RspPort) : (s.withRsp p).memPort = s.memPort := rfl
@[simp] theorem State.withRsp_gen (p : RspPort) : (s.withRsp p).gen = s.gen := rfl
@[simp] theorem State.withRsp_inReset (p : RspPort) : (s.withRsp p).inReset = s.inReset := rfl
@[simp] theorem State.withRsp_received (p : RspPort) : (s.withRsp p).received = s.received := rfl
@[simp] theorem State.withRsp_freeCount (p : RspPort) : (s.withRsp p).freeCount = s.freeCount := rfl
@[simp] theorem State.withRsp_inputs (p : RspPort) : (s.withRsp p).inputs = s.inputs := rfl

@[simp] theorem State.withQueue_cfg (l : List Entry) : (s.withQueue l).cfg = s.cfg := rfl
@[simp] theorem State.withQueue_req (l : List Entry) : (s.withQueue l).req = s.req := rfl
@[simp] theorem State.withQueue_rsp (l : List Entry) : (s.withQueue l).rsp = s.rsp := rfl
@[simp] theorem State.withQueue_q (l : List Entry) : (s.withQueue l).q = l := rfl
@[simp] theorem State.withQueue_mem (l : List Entry) : (s.withQueue l).mem = s.mem := rfl
@[simp] theorem State.withQueue_memPort (l : List Entry) : (s.withQueue l).memPort = s.memPort := rfl
@[simp] theorem State.withQueue_gen (l : List Entry) : (s.withQueue l).gen = s.gen := rfl
@[simp] theorem State.withQueue_inReset (l : List Entry) : (s.withQueue l).inReset = s.inReset := rfl
@[simp] theorem State.withQueue_received (l : List Entry) : (s.withQueue l).received = s.received := rfl
@[simp] theorem State.withQueue_freeCount (l : List Entry) : (s.withQueue l).freeCount = s.freeCount := rfl
@[simp] theorem State.withQueue_inputs (l : List Entry) : (s.withQueue l).inputs = s.inputs := rfl

@[simp] theorem State.withMem_cfg (m : Memory) : (s.withMem m).cfg = s.cfg := rfl
@[simp] theorem State.withMem_req (m : Memory) : (s.withMem m).req = s.req := rfl
@[simp] theorem State.withMem_rsp (m : Memory) : (s.withMem m).rsp = s.rsp := rfl
@[simp] theorem State.withMem_q (m : Memory) : (s.withMem m).q = s.q := rfl
@[simp] theorem State.withMem_mem (m : Memory) : (s.withMem m).mem = m := rfl
@[simp] theorem State.withMem_memPort (m : Memory) : (s.withMem m).memPort = s.memPort := rfl
@[simp] theorem State.withMem_gen (m : Memory) : (s.withMem m).gen = s.gen := rfl
@[simp] theorem State.withMem_inReset (m : Memory) : (s.withMem m).inReset = s.inReset := rfl
@[simp] theorem State.withMem_received (m : Memory) : (s.withMem m).received = s.received := rfl
@[simp] theorem State.withMem_freeCount (m : Memory) : (s.withMem m).freeCount = s.freeCount := rfl
@[simp] theorem State.withMem_inputs (m : Memory) : (s.withMem m).inputs = s.inputs := rfl

@[simp] theorem State.withMemPort_cfg (p : MemPort) : (s.withMemPort p).cfg = s.cfg := rfl
@[simp] theorem State.withMemPort_req (p : MemPort) : (s.withMemPort p).req = s.req := rfl
@[simp] theorem State.withMemPort_rsp (p : MemPort) : (s.withMemPort p).rsp = s.rsp := rfl
@[simp] theorem State.withMemPort_q (p : MemPort) : (s.withMemPort p).q = s.q := rfl
@[simp] theorem State.withMemPort_mem (p : MemPort) : (s.withMemPort p).mem = s.mem := rfl
@[simp] theorem State.withMemPort_memPort (p : MemPort) : (s.withMemPort p).memPort = p := rfl
@[simp] theorem State.withMemPort_gen (p : MemPort) : (s.withMemPort p).gen = s.gen := rfl
@[simp] theorem State.withMemPort_inReset (p : MemPort) : (s.withMemPort p).inReset = s.inReset := rfl
@[simp] theorem State.withMemPort_received (p : MemPort) : (s.withMemPort p).received = s.received := rfl
@[simp] theorem State.withMemPort_freeCount (p : MemPort) : (s.withMemPort p).freeCount = s.freeCount := rfl
@[simp] theorem State.withMemPort_inputs (p : MemPort) : (s.withMemPort p).inputs = s.inputs := rfl

@[simp] theorem State.withGen_cfg (p : GenPort) : (s.withGen p).cfg = s.cfg := rfl
@[simp] theorem State.withGen_req (p : GenPort) : (s.withGen p).req = s.req := rfl
@[simp] theorem State.withGen_rsp (p : GenPort) : (s.withGen p).rsp = s.rsp := rfl
@[simp] theorem State.withGen_q (p : GenPort) : (s.withGen p).q = s.q := rfl
@[simp] theorem State.withGen_mem (p : GenPort) : (s.withGen p).mem = s.mem := rfl
@[simp] theorem State.withGen_memPort (p : GenPort) : (s.withGen p).memPort = s.memPort := rfl
@[simp] theorem State.withGen_gen (p : GenPort) : (s.withGen p).gen = p := rfl
@[simp] theorem State.withGen_inReset (p : GenPort) : (s.withGen p).inReset = s.inReset := rfl
@[simp] theorem State.withGen_received (p : GenPort) : (s.withGen p).received = s.received := rfl
@[simp] theorem State.withGen_freeCount (p : GenPort) : (s.withGen p).freeCount = s.freeCount := rfl
@[simp] theorem State.withGen_inputs (p : GenPort) : (s.withGen p).inputs = s.inputs := rfl

@[simp] theorem State.withInReset_cfg (b : Bool) : (s.withInReset b).cfg = s.cfg := rfl
@[simp] theorem State.withInReset_req (b : Bool) : (s.withInReset b).req = s.req := rfl
@[simp] theorem State.withInReset_rsp (b : Bool) : (s.withInReset b).rsp = s.rsp := rfl
@[simp] theorem State.withInReset_q (b : Bool) : (s.withInReset b).q = s.q := rfl
@[simp] theorem State.withInReset_mem (b : Bool) : (s.withInReset b).mem = s.mem := rfl
@[simp] theorem State.withInReset_memPort (b : Bool) : (s.withInReset b).memPort = s.memPort := rfl
@[simp] theorem State.withInReset_gen (b : Bool) : (s.withInReset b).gen = s.gen := rfl
@[simp] theorem State.withInReset_inReset (b : Bool) : (s.withInReset b).inReset = b := rfl
@[simp] theorem State.withInReset_received (b : Bool) : (s.withInReset b).received = s.received := rfl
@[simp] theorem State.withInReset_freeCount (b : Bool) : (s.withInReset b).freeCount = s.freeCount := rfl
@[simp] theorem State.withInReset_inputs (b : Bool) : (s.withInReset b).inputs = s.inputs := rfl

@[simp] theorem State.withReceived_cfg (l : List RspData) : (s.withReceived l).cfg = s.cfg := rfl
@[simp] theorem State.withReceived_req (l : List RspData) : (s.withReceived l).req = s.req := rfl
@[simp] theorem State.withReceived_rsp (l : List RspData) : (s.withReceived l).rsp = s.rsp := rfl
@[simp] theorem State.withReceived_q (l : List RspData) : (s.withReceived l).q = s.q := rfl
@[simp] theorem State.withReceived_mem (l : List RspData) : (s.withReceived l).mem = s.mem := rfl
@[simp] theorem State.withReceived_memPort (l : List RspData) : (s.withReceived l).memPort = s.memPort := rfl
@[simp] theorem State.withReceived_gen (l : List RspData) : (s.withReceived l).gen = s.gen := rfl
@[simp] theorem State.withReceived_inReset (l : List RspData) : (s.withReceived l).inReset = s.inReset := rfl
@[simp] theorem State.withReceived_received (l : List RspData) : (s.withReceived l).received = l := rfl
@[simp] theorem State.withReceived_freeCount (l : List RspData) : (s.withReceived l).freeCount = s.freeCount := rfl
@[simp] theorem State.withReceived_inputs (l : List RspData) : (s.withReceived l).inputs = s.inputs := rfl

@[simp] theorem State.withFreeCount_cfg (n : Nat) : (s.withFreeCount n).cfg = s.cfg := rfl
@[simp] theorem State.withFreeCount_req (n : Nat) : (s.withFreeCount n).req = s.req := rfl
@[simp] theorem State.withFreeCount_rsp (n : Nat) : (s.withFreeCount n).rsp = s.rsp := rfl
@[simp] theorem State.withFreeCount_q (n : Nat) : (s.withFreeCount n).q = s.q := rfl
@[simp] theorem State.withFreeCount_mem (n : Nat) : (s.withFreeCount n).mem = s.mem := rfl
@[simp] theorem State.withFreeCount_memPort (n : Nat) : (s.withFreeCount n).memPort = s.memPort := rfl
@[simp] theorem State.withFreeCount_gen (n : Nat) : (s.withFreeCount n).gen = s.gen := rfl
@[simp] theorem State.withFreeCount_inReset (n : Nat) : (s.withFreeCount n).inReset = s.inReset := rfl
@[simp] theorem State.withFreeCount_received (n : Nat) : (s.withFreeCount n).received = s.received := rfl
@[simp] theorem State.withFreeCount_freeCount (n : Nat) : (s.withFreeCount n).freeCount = n := rfl
@[simp] theorem State.withFreeCount_inputs (n : Nat) : (s.withFreeCount n).inputs = s.inputs := rfl

@[simp] theorem State.withInputs_cfg (l : List Input) : (s.withInputs l).cfg = s.cfg := rfl
@[simp] theorem State.withInputs_req (l : List Input) : (s.withInputs l).req = s.req := rfl
@[simp] theorem State.withInputs_rsp (l : List Input) : (s.withInputs l).rsp = s.rsp := rfl
@[simp] theorem State.withInputs_q (l : List Input) : (s.withInputs l).q = s.q := rfl
@[simp] theorem State.withInputs_mem (l : List Input) : (s.withInputs l).mem = s.mem := rfl
@[simp] theorem State.withInputs_memPort (l : List Input) : (s.withInputs l).memPort = s.memPort := rfl
@[simp] theorem State.withInputs_gen (l : List Input) : (s.withInputs l).gen = s.gen := rfl
@[simp] theorem State.withInputs_inReset (l : List Input) : (s.withInputs l).inReset = s.inReset := rfl
@[simp] theorem State.withInputs_received (l : List Input) : (s.withInputs l).received = s.received := rfl
@[simp] theorem State.withInputs_freeCount (l : List Input) : (s.withInputs l).freeCount = s.freeCount := rfl
@[simp] theorem State.withInputs_inputs (l : List Input) : (s.withInputs l).inputs = l := rfl

end Sys2Proof.Machine
end

