-- ==== Sys2Proof/Laws/Ops.lean ====
section
/-! SUPPORT. For each shared operation, once, everything it can do. -/

namespace Sys2Proof.Machine

/-- A response is the instruction's own, or the free one that R66 allows. -/
theorem settle_cases (s : State) (e : Entry) (w : Nat) (sgn : Bool) (r : Response) :
    (e.disturbed = false ∧ s.settle e w sgn r = s.respond r) ∨
    (e.disturbed = true ∧
      s.settle e w sgn r = (s.respond (disturbedResponse w sgn s.freeCount)).withFreeCount (s.freeCount + 1)) := by
  unfold State.settle
  cases e.disturbed <;> simp

theorem settle_undisturbed {s : State} {e : Entry} {w : Nat} {sgn : Bool} {r : Response} (h : e.disturbed = false) :
    s.settle e w sgn r = s.respond r := by
  simp [State.settle, h]

/-- Lane `i` holds byte `i` of the answer (R37). -/
theorem laneData_getElem? {a k i : Nat} {bs : List Byte} (h8 : i < 8) (hi : i < bs.length) :
    (laneData a k (some bs))[i]? = bs[i]? := by
  simp [laneData, h8, hi]

/-- The lanes of an answer carry the bytes it was made from. -/
theorem laneBytes_laneData {a k : Nat} {bs : List Byte} (hk : bs.length = k) (h8 : k ≤ 8) :
    laneBytes (laneData a k (some bs)) k = bs := by
  apply List.ext_getElem
  · simp [laneBytes]; omega
  · intro i h1 h2
    simp [laneBytes, laneData, h2]

theorem laneBytes_length (d : Vector Byte 8) {k : Nat} (h : k ≤ 8) : (laneBytes d k).length = k := by
  simp [laneBytes, h]

/-- A read waits: its answer is outstanding, or the memory is not ready, or it takes the read and is not prompt. -/
theorem loadBytes_wait {s t : State} {a k : Nat} (h : loadBytes s a k = .wait t) :
    s.memPort.rspValid = false ∧
    ((s.memPort.waiting = true ∧ t = s) ∨
     (s.memPort.waiting = false ∧ s.memPort.reqReady = false ∧ t = s.withMemPort (s.memPort.drive a k)) ∨
     (s.memPort.waiting = false ∧ s.memPort.reqReady = true ∧ s.memPort.prompt = false ∧
      t = s.withMemPort (s.memPort.take a k))) := by
  unfold loadBytes at h
  split_ifs at h with h1 h2 h3 h4 <;> simp only [Reply.wait.injEq] at h <;> subst h <;> simp_all

/-- A read ends: the answer that has come is consumed, or the memory answers at once. -/
theorem loadBytes_done {s t : State} {a k : Nat} {bs : Option (List Byte)} (h : loadBytes s a k = .done bs t) :
    (s.memPort.rspValid = true ∧ bs = (if s.memPort.rspErr then none else some (laneBytes s.memPort.rspData k)) ∧
      t = s.withMemPort { s.memPort with rspValid := false }) ∨
    (s.memPort.answersNow ∧ bs = memRead s.mem s.cfg.addrW a k ∧
      t = s.withMemPort (s.memPort.finish a k bs)) := by
  unfold loadBytes at h
  split_ifs at h with h1 h2 h3 h4 <;> simp only [Reply.done.injEq] at h <;> obtain ⟨rfl, rfl⟩ := h <;>
    simp_all [MemPort.answersNow]

/-- A prompt memory ends the read in the same step. -/
theorem loadBytes_now {s : State} (a k : Nat) (h : s.memPort.answersNow) :
    loadBytes s a k = .done (memRead s.mem s.cfg.addrW a k)
      (s.withMemPort (s.memPort.finish a k (memRead s.mem s.cfg.addrW a k))) := by
  obtain ⟨h1, h2, h3, h4⟩ := h
  simp [loadBytes, h1, h2, h3, h4]

/-- The fast path always answers a next state, and there are five cases: no request, a failed pre-check, a read that waits, a
read error, and the instruction's own response. -/
theorem fastPath_cases {s t : State} {w : Nat} {sgn : Bool} {value : List Byte → Response}
    (h : fastPath s w sgn value = .next t) :
    (s.q = [] ∧ t = s) ∨
    ∃ e rest, s.q = e :: rest ∧
      ((∃ c, precheck e.req w = some c ∧ t = s.respond (.fail c)) ∨
       (precheck e.req w = none ∧
        ((loadBytes s (effAddr s.cfg.addrW e.req) (w / 8) = .wait t) ∨
         (∃ s', loadBytes s (effAddr s.cfg.addrW e.req) (w / 8) = .done none s' ∧
            t = s'.settle e w sgn (.fail .busError)) ∨
         (∃ bs s', loadBytes s (effAddr s.cfg.addrW e.req) (w / 8) = .done (some bs) s' ∧
            t = s'.settle e w sgn (value bs))))) := by
  unfold fastPath at h
  split at h
  · simp_all
  · rename_i e rest hq
    right
    refine ⟨e, rest, hq, ?_⟩
    split at h
    · simp_all
    · right
      refine ⟨‹_›, ?_⟩
      split at h <;> simp_all

/-- The fast path never stops. -/
theorem fastPath_next (s : State) (w : Nat) (sgn : Bool) (value : List Byte → Response) :
    ∃ t, fastPath s w sgn value = .next t := by
  unfold fastPath
  split
  · exact ⟨_, rfl⟩
  · split
    · exact ⟨_, rfl⟩
    · split <;> exact ⟨_, rfl⟩

/-- A generic request waits, in the three ways of `loadBytes_wait`. -/
theorem genericCall_wait {s t : State} {g : GenReq} (h : genericCall s g = .wait t) :
    s.gen.rspValid = false ∧
    ((s.gen.waiting = true ∧ t = s) ∨
     (s.gen.waiting = false ∧ s.gen.reqReady = false ∧ t = s.withGen (s.gen.drive g)) ∨
     (s.gen.waiting = false ∧ s.gen.reqReady = true ∧ s.gen.prompt = false ∧ t = s.withGen (s.gen.take g))) := by
  unfold genericCall at h
  split_ifs at h with h1 h2 h3 h4 <;> simp only [Reply.wait.injEq] at h <;> subst h <;> simp_all

/-- A generic request ends: the answer that has come is consumed, or the decoder answers at once. -/
theorem genericCall_done {s t : State} {g : GenReq} {v : Option Value} (h : genericCall s g = .done v t) :
    (s.gen.rspValid = true ∧ v = (if s.gen.rspOk then some s.gen.rspValue else none) ∧
      t = s.withGen { s.gen with rspValid := false, rspReady := false }) ∨
    (s.gen.answersNow ∧ v = genericAnswer s.gen.unit s.mem s.cfg.addrW g ∧ t = s.withGen (s.gen.finish g v)) := by
  unfold genericCall at h
  split_ifs at h with h1 h2 h3 h4 <;> simp only [Reply.done.injEq] at h <;> obtain ⟨rfl, rfl⟩ := h <;>
    simp_all [GenPort.answersNow]

/-- A prompt decoder ends the request in the same step. -/
theorem genericCall_now {s : State} (g : GenReq) (h : s.gen.answersNow) :
    genericCall s g = .done (genericAnswer s.gen.unit s.mem s.cfg.addrW g)
      (s.withGen (s.gen.finish g (genericAnswer s.gen.unit s.mem s.cfg.addrW g))) := by
  obtain ⟨h1, h2, h3, h4⟩ := h
  simp [genericCall, h1, h2, h3, h4]

/-- The generic path, case by case, as `fastPath_cases`. -/
theorem execExtg_cases {s t : State} {w : BitVec 7} {sgn le : Bool} (h : execExtg w sgn le s = .next t) :
    (s.q = [] ∧ t = s) ∨
    ∃ e rest, s.q = e :: rest ∧
      ((∃ c, precheck e.req w.toNat = some c ∧ t = s.respond (.fail c)) ∨
       (precheck e.req w.toNat = none ∧
        ((genericCall s (genericRequest s.cfg.addrW e.req w sgn le) = .wait t) ∨
         (∃ s', genericCall s (genericRequest s.cfg.addrW e.req w sgn le) = .done none s' ∧
            t = s'.settle e w.toNat sgn (.fail .genericFail)) ∨
         (∃ v s', genericCall s (genericRequest s.cfg.addrW e.req w sgn le) = .done (some v) s' ∧
            t = s'.settle e w.toNat sgn (.ok v sgn))))) := by
  unfold execExtg at h
  split at h
  · simp_all
  · rename_i e rest hq
    right
    refine ⟨e, rest, hq, ?_⟩
    split at h
    · simp_all
    · right
      refine ⟨‹_›, ?_⟩
      split at h <;> simp_all

/-- The generic path never stops. -/
theorem execExtg_next (s : State) (w : BitVec 7) (sgn le : Bool) : ∃ t, execExtg w sgn le s = .next t := by
  unfold execExtg
  split
  · exact ⟨_, rfl⟩
  · split
    · exact ⟨_, rfl⟩
    · split <;> exact ⟨_, rfl⟩

/-- The pre-checks of a legal request, in one line each. -/
theorem precheck_none {r : Request} {w : Nat} :
    precheck r w = none ↔ r.offset.toNat ≤ 8 * r.len ∧ w ≤ 8 * r.len - r.offset.toNat ∧ r.offset.toNat % 8 = 0 := by
  unfold precheck exceedsBuffer offsetUnaligned totalBits
  split_ifs with h1 h2 <;> simp only [Bool.or_eq_true, decide_eq_true_eq, bne_iff_ne, false_iff, true_iff, ne_eq,
    not_not] at * <;> omega

/-- A delivered response leaves the port and its request leaves the queue. -/
theorem deliver_cases (s : State) :
    (s.rsp.data.cause = 7 ∧ s.deliver = .fault .reservedCause) ∨
    (s.rsp.data.cause ≠ 7 ∧
      s.deliver = .next (((s.withRsp { s.rsp with valid := false }).withQueue s.q.tail).withReceived
        (s.received ++ [s.rsp.data])).driveReady) := by
  unfold State.deliver
  split
  · exact .inl ⟨‹_›, rfl⟩
  · exact .inr ⟨‹_›, rfl⟩

/-- The engine's turn is one of six things. -/
theorem engineTurn_cases (s : State) :
    (s.inReset = true ∧ engineTurn s = .next s) ∨
    (s.inReset = false ∧
      ((s.rsp.valid = true ∧ s.rsp.ready = true ∧ engineTurn s = s.deliver) ∨
       ((s.rsp.valid && s.rsp.ready) = false ∧
        (((s.req.valid && s.req.ready && s.hasRoom) = true ∧ engineTurn s = .next s.accept) ∨
         ((s.req.valid && s.req.ready && s.hasRoom) = false ∧
          ((s.rsp.valid = true ∧ engineTurn s = .next s.driveReady) ∨
           (s.rsp.valid = false ∧
            ((s.q = [] ∧ engineTurn s = .next s.driveReady) ∨
             ∃ e rest, s.q = e :: rest ∧ engineTurn s = runHead s e)))))))) := by
  unfold engineTurn
  split_ifs with h1 h2 h3 h4
  · simp_all
  · simp_all
  · simp_all
  · simp_all
  · have : s.rsp.valid = false := by simpa using h4
    cases hq : s.q <;> simp_all

end Sys2Proof.Machine
end

