-- ==== Sys2Proof/Laws/PerInstr.lean ====
section
/-! SUPPORT. The family `TableRow`: the word an instruction encodes to matches its row of spec/opcode_table.json, the row written
out here as its (mask, match) pair (30_encoding.md R75). -/

namespace Sys2Proof.Laws.TableRow

/-- The row of an instruction in the opcode table: its mask and its match. -/
def row : Instr → CtrlWord × CtrlWord
  | .ext8u _ => (0xFF7F, 0x0008)
  | .ext8s _ => (0xFF7F, 0x0108)
  | .ext16ub => (0xFFFF, 0x0010)
  | .ext16ul => (0xFFFF, 0x0090)
  | .ext16sb => (0xFFFF, 0x0110)
  | .ext16sl => (0xFFFF, 0x0190)
  | .ext32ub => (0xFFFF, 0x0020)
  | .ext32ul => (0xFFFF, 0x00A0)
  | .ext32sb => (0xFFFF, 0x0120)
  | .ext32sl => (0xFFFF, 0x01A0)
  | .ext64ub => (0xFFFF, 0x0040)
  | .ext64ul => (0xFFFF, 0x00C0)
  | .ext64sb => (0xFFFF, 0x0140)
  | .ext64sl => (0xFFFF, 0x01C0)
  | .extg _ _ _ => (0xFE00, 0x0000)

/-- The encoded word matches the row. -/
def Statement (i : Instr) : Prop := encode i &&& (row i).1 = (row i).2

theorem ext8u (le : Bool) : Statement (.ext8u le) := by cases le <;> rfl
theorem ext8s (le : Bool) : Statement (.ext8s le) := by cases le <;> rfl
theorem ext16ub : Statement .ext16ub := rfl
theorem ext16ul : Statement .ext16ul := rfl
theorem ext16sb : Statement .ext16sb := rfl
theorem ext16sl : Statement .ext16sl := rfl
theorem ext32ub : Statement .ext32ub := rfl
theorem ext32ul : Statement .ext32ul := rfl
theorem ext32sb : Statement .ext32sb := rfl
theorem ext32sl : Statement .ext32sl := rfl
theorem ext64ub : Statement .ext64ub := rfl
theorem ext64ul : Statement .ext64ul := rfl
theorem ext64sb : Statement .ext64sb := rfl
theorem ext64sl : Statement .ext64sl := rfl
theorem extg (w : BitVec 7) (sgn le : Bool) : Statement (.extg w sgn le) := by
  revert w sgn le
  show ∀ (w : BitVec 7) (sgn le : Bool), ctrlOf w sgn le &&& 0xFE00 = 0x0000
  decide

end Sys2Proof.Laws.TableRow
end

