-- ==== Sys2Proof/Tests/Slice0.lean ====
section
/-! SUPPORT. The model's own tests. Expected results are the spec's: the vectors of 95_test_vectors.md (section and line named),
or the rule named. The second half shows, for each statement of Obligations.lean that has hypotheses, values that meet them. -/

namespace Sys2Proof.Tests

open Sys2Proof Sys2Proof.Machine

/-! ### Well-formedness: one ill-formed term for each check -/

/-- `widthNonzero` (R76). -/
theorem test_width_zero_refused : (Instr.extg 0 false false).wellFormed = false := by decide
/-- `widthBelow64` (R73). -/
theorem test_width_64_refused : (Instr.extg 64 false false).wellFormed = false := by decide
theorem test_width_127_refused : (Instr.extg 127 true true).wellFormed = false := by decide
/-- `widthNotFast` (R73). -/
theorem test_width_8_refused : (Instr.extg 8 false true).wellFormed = false := by decide
theorem test_width_16_refused : (Instr.extg 16 true false).wellFormed = false := by decide
theorem test_width_32_refused : (Instr.extg 32 false false).wellFormed = false := by decide
theorem test_widths_accepted : (Instr.extg 1 false false).wellFormed = true ∧ (Instr.extg 63 true true).wellFormed = true ∧
    (Instr.ext8u true).wellFormed = true := by decide

/-! ### Decoding. Words written out from R71: RSVD 15:9, SGN 8, LE 7, WIDTH 6:0 -/

theorem test_decode_ext8u : decode 0b0000000_0_0_0001000 = .ok (.ext8u false) ∧
    decode 0b0000000_0_1_0001000 = .ok (.ext8u true) := ⟨rfl, rfl⟩
theorem test_decode_ext8s : decode 0b0000000_1_0_0001000 = .ok (.ext8s false) ∧
    decode 0b0000000_1_1_0001000 = .ok (.ext8s true) := ⟨rfl, rfl⟩
theorem test_decode_ext16ub : decode 0b0000000_0_0_0010000 = .ok .ext16ub := rfl
theorem test_decode_ext16ul : decode 0b0000000_0_1_0010000 = .ok .ext16ul := rfl
theorem test_decode_ext16sb : decode 0b0000000_1_0_0010000 = .ok .ext16sb := rfl
theorem test_decode_ext16sl : decode 0b0000000_1_1_0010000 = .ok .ext16sl := rfl
theorem test_decode_ext32ub : decode 0b0000000_0_0_0100000 = .ok .ext32ub := rfl
theorem test_decode_ext32ul : decode 0b0000000_0_1_0100000 = .ok .ext32ul := rfl
theorem test_decode_ext32sb : decode 0b0000000_1_0_0100000 = .ok .ext32sb := rfl
theorem test_decode_ext32sl : decode 0b0000000_1_1_0100000 = .ok .ext32sl := rfl
theorem test_decode_ext64ub : decode 0b0000000_0_0_1000000 = .ok .ext64ub := rfl
theorem test_decode_ext64ul : decode 0b0000000_0_1_1000000 = .ok .ext64ul := rfl
theorem test_decode_ext64sb : decode 0b0000000_1_0_1000000 = .ok .ext64sb := rfl
theorem test_decode_ext64sl : decode 0b0000000_1_1_1000000 = .ok .ext64sl := rfl
theorem test_decode_extg : decode 0b0000000_0_0_0000001 = .ok (.extg 1 false false) ∧
    decode 0b0000000_0_1_0001100 = .ok (.extg 12 false true) ∧
    decode 0b0000000_1_1_0111111 = .ok (.extg 63 true true) := ⟨rfl, rfl, rfl⟩

/-- Section 2.1, the illegal words. -/
theorem test_decode_illegal : decode 0x0000 = .error .widthZero ∧ decode 0x0041 = .error .widthOver64 ∧
    decode 0x007F = .error .widthOver64 ∧ decode 0x0200 = .error .reservedBits ∧
    decode 0x0208 = .error .reservedBits ∧ decode 0xFFFF = .error .reservedBits := ⟨rfl, rfl, rfl, rfl, rfl, rfl⟩

/-- The table's words: `EXT64SL` is 0x01C0; a word of zeros is illegal (R76). -/
theorem test_decode_table_word : decodeTableWord 16 0x01C0 = some .ext64sl ∧ decodeTableWord 16 0 = none ∧
    decodeTableWord 16 0x0107 = some (.extg 7 true false) := ⟨rfl, rfl, rfl⟩

/-- Section 3, P1, step 2: `EXT32UB hdr, 8` with `hdr = (0x1000, 4)`. -/
theorem test_assemble_fast : assemble 64 (.fast "EXT32UB" 0x1000 4 8) =
    some { base := 0x1000, len := 4, offset := 8, ctrl := 0x0020 } := rfl

/-- R80: an operand outside its range is rejected; 16 is no width of EXTG. -/
theorem test_assemble_rejects : assemble 64 (.fast "EXT8U" 0 0 (2 ^ 64)) = none ∧
    assemble 64 (.extg 16 false false 0 8 0) = none ∧ assemble 64 (.fast "EXT9U" 0 8 0) = none := by decide

/-- R81: EXT of width 16 is the fast-path word, of width 12 the generic one. -/
theorem test_assemble_ext : (assemble 64 (.ext 16 true true 0 8 0)).map Request.ctrl = some 0x0190 ∧
    (assemble 64 (.ext 12 false true 0 8 0)).map Request.ctrl = some 0x008C := by decide

/-! ### One step -/

/-- Just out of reset, with a queue of two. -/
def idle : State := State.resetWith { addrW := 64, pipeDepth := 2 }

/-- Bytes from an address on. -/
def cells (a : Nat) : List Byte → Memory
  | [] => []
  | b :: bs => (a, b) :: cells (a + 1) bs

/-- A queue entry that nobody has disturbed. -/
def entry (base len : Nat) (offset : Offset) (ctrl : CtrlWord) : Entry :=
  { req := { base := base, len := len, offset := offset, ctrl := ctrl }, disturbed := false }

/-- This request at the head of the queue, over this memory. -/
def holding (m : Memory) (e : Entry) : State := (idle.withMem m).withQueue [e]

/-- The same with the reference decoder of R157 attached. -/
def withReference (s : State) : State := s.withGen { s.gen with unit := .reference }

/-- The next state, where there is one. -/
def nextOf : Result → Option State
  | .next t => some t
  | _ => none

/-- The response on the port after a step. -/
def answer (r : Result) : Option RspData :=
  (nextOf r).bind fun t => if t.rsp.valid then some t.rsp.data else none

/-- The response registers of a value, and of a failure, as R30 to R33 say. -/
def ok (v : Value) (signed : Bool) : Option RspData := some { ok := true, signed := signed, value := v, cause := 0 }
def fail (cause : BitVec 3) : Option RspData := some { ok := false, signed := false, value := 0, cause := cause }

/-- Section 2.2's buffer. -/
def mem22 : Memory := cells 0x1000 [0xDE, 0xAD, 0xBE, 0xEF, 0x01]
/-- Section 2.3's buffer. -/
def mem23 : Memory :=
  cells 0x2001 [0x00, 0x7F, 0x80, 0xFF, 0x01, 0x02, 0x03, 0x04, 0x05, 0x06, 0x07, 0x08, 0xFE, 0xDC, 0xBA, 0x98]
/-- Section 2.4's: 0x2006 answers with an error. -/
def mem24 : Memory := memErase mem23 0x2006
/-- Section 2.5's buffer. -/
def mem25 : Memory := cells 0x3000 [0x12, 0x34, 0x56, 0x78, 0x9A, 0xBC, 0xDE, 0xF0]

def run22 (offset : Offset) (ctrl : CtrlWord) : Option RspData := answer (step (holding mem22 (entry 0x1000 5 offset ctrl)))
def run23 (offset : Offset) (ctrl : CtrlWord) : Option RspData := answer (step (holding mem23 (entry 0x2001 16 offset ctrl)))
def run24 (offset : Offset) (ctrl : CtrlWord) : Option RspData := answer (step (holding mem24 (entry 0x2001 16 offset ctrl)))
def run25 (offset : Offset) (ctrl : CtrlWord) : Option RspData := answer (step (holding mem25 (entry 0x3000 8 offset ctrl)))
def runRef (offset : Offset) (ctrl : CtrlWord) : Option RspData :=
  answer (step (withReference (holding mem25 (entry 0x3000 8 offset ctrl))))

/-- Section 2.2: exact fit at the end. -/
theorem test_ext8u_exact_fit : run22 0x20 0x0008 = ok 0x01 false := by decide
/-- Section 2.2, R93: a wrapped subtraction would pass. -/
theorem test_ext8u_no_wrap : run22 0xFFFFFFFFFFFFFFF8 0x0008 = fail 1 := by decide
/-- Section 2.3. -/
theorem test_ext8s_negative : run23 0x10 0x0108 = ok 0xFFFFFFFFFFFFFF80 true := by decide
/-- Section 2.3, the word with LE set. -/
theorem test_ext8s_ignores_le : run23 0x10 0x0188 = ok 0xFFFFFFFFFFFFFF80 true := by decide
/-- Section 2.3, the last two bytes. -/
theorem test_ext16ub : run23 0x70 0x0010 = ok 0xBA98 false := by decide
/-- Section 2.2: in bounds, unaligned. -/
theorem test_ext16ub_unaligned : run22 0x4 0x0010 = fail 2 := by decide
/-- Section 2.3. -/
theorem test_ext16ul : run23 0x8 0x0090 = ok 0x807F false := by decide
/-- Section 2.3. -/
theorem test_ext16sb : run23 0x10 0x0110 = ok 0xFFFFFFFFFFFF80FF true := by decide
/-- Section 2.3. -/
theorem test_ext16sl : run23 0x70 0x0190 = ok 0xFFFFFFFFFFFF98BA true := by decide
/-- Section 2.3. -/
theorem test_ext32ub : run23 0x60 0x0020 = ok 0xFEDCBA98 false := by decide
/-- Section 2.2: one byte short. -/
theorem test_ext32ub_bounds : run22 0x10 0x0020 = fail 1 := by decide
/-- Section 2.3. -/
theorem test_ext32ul : run23 0x20 0x00A0 = ok 0x04030201 false := by decide
/-- Section 2.3. -/
theorem test_ext32sb : run23 0x60 0x0120 = ok 0xFFFFFFFFFEDCBA98 true := by decide
/-- Section 2.3. -/
theorem test_ext32sl : run23 0x60 0x01A0 = ok 0xFFFFFFFF98BADCFE true := by decide
/-- Section 2.3. -/
theorem test_ext64ub : run23 0x20 0x0040 = ok 0x0102030405060708 false := by decide
/-- Section 2.4. -/
theorem test_ext64ub_bus_error : run24 0x20 0x0040 = fail 6 := by decide
/-- Section 2.3: bit 63 set, unsigned. -/
theorem test_ext64ul : run23 0x40 0x00C0 = ok 0x98BADCFE08070605 false := by decide
/-- Section 2.3. -/
theorem test_ext64sb : run23 0x40 0x0140 = ok 0x05060708FEDCBA98 true := by decide
/-- Section 1, S5. -/
theorem test_ext64sb_sign64 :
    answer (step (holding (cells 0x2000 [0x80, 0, 0, 0, 0, 0, 0, 0]) (entry 0x2000 8 0 0x0140))) = fail 3 := by decide
/-- Section 2.3: the same pattern as `test_ext64ul`, signed. -/
theorem test_ext64sl_sign64 : run23 0x40 0x01C0 = fail 3 := by decide
/-- Section 2.4: BUS_ERROR wins over SIGN64. -/
theorem test_ext64sl_bus_error_first :
    answer (step (holding (memErase (cells 0x3000 [0, 0, 0, 0, 0, 0, 0, 0x80]) 0x3003) (entry 0x3000 8 0 0x01C0))) =
      fail 6 := by decide
/-- Section 2.5: fixed by law L2, so it holds of the open decoder. -/
theorem test_extg_conforming : run25 0x8 0x01B8 = ok 0xFFF0DEBC9A785634 true := by decide
/-- Section 2.5, GenericRef: 63 bits, signed, little endian. -/
theorem test_extg_reference : runRef 0x0 0x01BF = ok 0xF8DEBC9A78563412 true := by decide

/-- Section 2.2: ILLEGAL wins over BOUNDS. -/
theorem test_illegal_first : run22 0x64 0x0000 = fail 5 := by decide
/-- Section 2.2: BOUNDS wins over UNALIGNED. -/
theorem test_bounds_before_unaligned : run22 0x24 0x0008 = fail 1 := by decide
/-- Section 2.4: a generic read error is GENERIC_FAIL. -/
theorem test_generic_fail : run24 0x20 0x0018 = fail 4 := by decide

/-- R62: reads wrap at the top of the address space (R10): with ADDR_W = 4, EXT16UB at address 15 reads 15 and 0. -/
theorem test_address_wraps :
    answer (step (((State.resetWith { addrW := 4, pipeDepth := 1 }).withMem [(0, 0x34), (15, 0x12)]).withQueue
      [entry 15 2 0 0x0010])) = ok 0x1234 false := by decide

/-- Log 18: the host's fetch word runs as the first instruction; its operands of zero fail the bounds check (R99). -/
theorem test_fetch_word : answer (step (idle.withFetchWord 16 0x01C0)) = fail 1 := by decide

/-! ### Values that meet the hypotheses of the statements

`witness_<Name>` belongs to `Obligations.<Name>`; where a statement has several clauses, the witness has one part for each. -/

/-- A step, or an instruction, answers a next state. -/
abbrev completes (r : Result) : Prop := (nextOf r).isSome = true

/-- The port and the queue of a machine that runs its head, and whose memory and decoder answer at once. -/
abbrev ready (s : State) (e : Entry) : Prop := s.runsHead ∧ s.headIs e ∧ s.memPort.answersNow ∧ s.gen.answersNow

/-- The same state with other inputs. -/
def fed (s : State) (l : List Input) : State := s.withInputs l

/-- A request of section 2.3 that passes every check of `EXT32UB` and `EXT32SB`. -/
def e32 : Entry := entry 0x2001 16 0x60 0x0020
def s32 : State := holding mem23 e32
/-- The same of `EXT64SB`. -/
def e64 : Entry := entry 0x2001 16 0x40 0x0140
def s64 : State := holding mem23 e64
/-- The same of `EXTG 12, S, L`. -/
def e12 : Entry := entry 0x3000 8 0x20 0x018C
def s12 : State := holding mem25 e12
/-- The same of `EXTG 24, S, L`. -/
def e24 : Entry := entry 0x3000 8 0x10 0x0198
def s24 : State := holding mem25 e24

/-- A state whose read is on the channel, not taken; taken; answered; answered with an error. -/
def s32Slow : State := s32.withMemPort { s32.memPort with prompt := false }
def s32Shut : State := s32.withMemPort { s32.memPort with reqReady := false }
def s32Waiting : State := s32.withMemPort (s32.memPort.take 0x200D 4)
def s32Answered : State :=
  s32.withMemPort
    { s32.memPort with
      rspValid := true, addr := 0x200D, nbytes := 4, rspData := #v[0xFE, 0xDC, 0xBA, 0x98, 0, 0, 0, 0] }
def s32Failed : State := s32.withMemPort { s32.memPort with rspValid := true, rspErr := true }

/-- The same on the generic channel. -/
def s12Slow : State := s12.withGen { s12.gen with prompt := false }
def s12Shut : State := s12.withGen { s12.gen with reqReady := false }
def s12Waiting : State := s12.withGen (s12.gen.take (genericRequest 64 e12.req 12 true true))
def s12Answered : State := s12.withGen { s12.gen with rspValid := true, rspOk := true, rspValue := 0xFFFFFFFFFFFFFB9A }
def s12Failed : State := s12.withGen { s12.gen with rspValid := true, rspOk := false }

/-- A request whose bytes were written in flight. -/
def sDisturbed (e : Entry) : State := holding mem23 { e with disturbed := true }

/-- A response on the port, with the requester ready or not. -/
def sResponded (rdy : Bool) (d : RspData) : State := s32.withRsp { valid := true, ready := rdy, data := d }
def someValue : RspData := { ok := true, signed := false, value := 0xFEDCBA98, cause := 0 }
def cause7 : RspData := { ok := false, signed := false, value := 0, cause := 7 }

/-- A request presented to an engine that has room. -/
def sPresented : State := s32.withReq { valid := true, ready := true, fields := e12.req }
/-- A full queue. -/
def sFull : State := s32.withQueue [e32, e64]
/-- A full queue, read by a requester that is ready. -/
def sDraining : State := (sFull).withRsp { valid := false, ready := true, data := RspData.reset }

/-- R37, R110: the bytes of a late answer are the first four lanes. -/
theorem test_late_answer : answer (exec .ext32ub s32Answered) = ok 0xFEDCBA98 false ∧
    answer (exec .ext32ub s32Failed) = fail 6 := by decide

theorem witness_DecodeOfEncodeIsTheInstruction :
    (Instr.extg 1 false false).wellFormed = true ∧ (Instr.extg 63 true true).wellFormed = true ∧
    (Instr.ext8u true).wellFormed = true := by decide

theorem witness_EncodeOfDecodeIsTheWord : decode 0x003F = .ok (.extg 63 false false) ∧ decode 0x0188 = .ok (.ext8s true) :=
  ⟨rfl, rfl⟩

theorem witness_AssemblerEmitsOnlyLegalRequests :
    assemble 64 (.extg 63 true true (2 ^ 64 - 1) (2 ^ 64 - 1) (2 ^ 64 - 1)) =
      some { base := 2 ^ 64 - 1, len := 2 ^ 64 - 1, offset := 0xFFFFFFFFFFFFFFFF, ctrl := 0x01BF } ∧
    (assemble 64 (.fast "EXT64SL" 0 8 0)).isSome = true ∧ (assemble 64 (.ext 1 false false 0 1 0)).isSome = true ∧
    (2 ^ 64 - 1 < 2 ^ 64 ∧ ("EXT8U", (0x0008 : CtrlWord)) ∈ [("EXT8U", 0x0008)]) ∧ "EXT9U" ∉ ["EXT8U", "EXT64SL"] ∧
    2 ^ 64 ≤ 2 ^ 64 ∧ 64 ≤ 64 := by decide

theorem witness_PseudoExtExpandsToOneRequest :
    2 ^ 64 - 1 < 2 ^ 64 ∧ (0 < 2 ^ 64) ∧ ((1 ≤ 1 ∧ 1 ≤ 64) ∧ 1 ≤ 64 ∧ 64 ≤ 64) ∧ (0 = 0 ∨ 64 < 0) ∧ (65 = 0 ∨ 64 < 65) := by
  decide

/-- At the boundary: one bit too far, and an exact fit. -/
theorem witness_BoundsFailExactlyWhenTheRangeExceedsTheBuffer :
    (1 ≤ 1 ∧ precheck (entry 0x1000 5 0x28 0x0001).req 1 = some .bounds) ∧
    ((Instr.extg 1 false false).wellFormed = true ∧
      (holding mem22 (entry 0x1000 5 0x28 0x0001)).q.head? = some (entry 0x1000 5 0x28 0x0001) ∧ 8 * 5 < 0x28 + 1) ∧
    (1 ≤ 8 ∧ precheck (entry 0x1000 5 0x20 0x0008).req 8 = none) := by decide

theorem witness_OffsetPastTheBufferNeverWraps : 8 * (entry 0x1000 5 0x29 0x0008).req.len < (0x29 : Offset).toNat := by decide

/-- The last bit of the buffer, and an offset past it. -/
theorem witness_UnalignedOffsetFailsForEveryInstruction :
    (Instr.extg 1 false false).wellFormed = true ∧
    (holding mem22 (entry 0x1000 5 0x27 0x0001)).q.head? = some (entry 0x1000 5 0x27 0x0001) ∧
    (entry 0x1000 5 0x27 0x0001).req.offset.toNat + 1 ≤ 8 * 5 ∧ (entry 0x1000 5 0x27 0x0001).req.offset.toNat % 8 ≠ 0 ∧
    (entry 0x1000 5 0x2C 0x0001).req.offset.toNat % 8 ≠ 0 := by decide

theorem witness_PrechecksRunInOrderAndReadNothing :
    ((holding mem22 (entry 0x1000 5 0x64 0)).runsHead ∧
      (holding mem22 (entry 0x1000 5 0x64 0)).q.head? = some (entry 0x1000 5 0x64 0) ∧ decode 0 = .error .widthZero) ∧
    ((holding mem22 (entry 0x1000 5 0x24 8)).runsHead ∧ decode 8 = .ok (.ext8u false) ∧ 8 * 5 < (0x24 : Offset).toNat + 8) ∧
    ((holding mem22 (entry 0x1000 5 0x27 1)).runsHead ∧ decode 1 = .ok (.extg 1 false false) ∧
      (0x27 : Offset).toNat + 1 ≤ 8 * 5 ∧ (0x27 : Offset).toNat % 8 ≠ 0) :=
  ⟨⟨by decide, by decide, rfl⟩, ⟨by decide, rfl, by decide⟩, by decide, rfl, by decide, by decide⟩

/-- R99's cases; the fifth and sixth need a buffer of 2^61 bytes and more. -/
theorem witness_BoundsCheckBoundaryCases :
    (1 ≤ 64 ∧ 64 ≤ 64) ∧
    (entry 0 5 0x28 0).req.offset.toNat = 8 * 5 ∧
    (entry 0 5 0x27 0).req.offset.toNat + 1 = 8 * 5 ∧
    (entry 0 0 0 0).req.len = 0 ∧
    ((entry 0 5 0xFFFFFFFFFFFFFFFF 0).req.offset.toNat = 2 ^ 64 - 1 ∧ 8 * 5 < 2 ^ 64 - 1 + 1) ∧
    ((entry 0 (2 ^ 61) 0xFFFFFFFFFFFFFFFF 0).req.offset.toNat = 2 ^ 64 - 1 ∧ 2 ^ 64 - 1 + 1 ≤ 8 * 2 ^ 61) ∧
    (0 < 2 ^ 62 ∧ 2 ^ 61 < 2 ^ 62) ∧
    precheck (entry 0 5 0x20 0).req 8 = none := by decide

/-- A value, the last byte of the buffer, and a read error. -/
theorem witness_ExtractEightBits :
    ready (holding mem22 (entry 0x1000 5 0x20 8)) (entry 0x1000 5 0x20 8) ∧
    ready (holding mem24 (entry 0x2001 16 0x28 8)) (entry 0x2001 16 0x28 8) := by decide

theorem witness_ExtractSixteenBits :
    ready (holding mem22 (entry 0x1000 5 0x18 0x10)) (entry 0x1000 5 0x18 0x10) ∧
    ready (holding mem22 (entry 0x1000 5 0x4 0x10)) (entry 0x1000 5 0x4 0x10) := by decide

theorem witness_ExtractThirtyTwoBits : ready s32 e32 ∧ precheck e32.req 32 = none ∧
    ready (holding mem22 (entry 0x1000 5 0x10 0x20)) (entry 0x1000 5 0x10 0x20) := by decide

theorem witness_ExtractSixtyFourBits : ready s64 e64 ∧ precheck e64.req 64 = none ∧
    ready (holding mem23 (entry 0x2001 16 0x40 0x1C0)) (entry 0x2001 16 0x40 0x1C0) := by decide

theorem witness_FastPathFrame : Instr.ext32sl.isFast = true ∧ completes (exec .ext32sl s32) ∧
    completes (exec .ext64sb (sDisturbed e64)) := by
  refine ⟨rfl, by decide, ?_⟩
  rfl

theorem witness_GenericPathFrame : completes (exec (.extg 24 true true) s24) ∧ completes (exec (.extg 12 true true) s12Slow) := by
  decide

theorem witness_SignedAndUnsignedAgreeBelowTheWidth :
    Instr.ext32ub.isFast = true ∧ Instr.ext32sb.isFast = true ∧ Instr.ext32ub.signed = false ∧ Instr.ext32sb.signed = true ∧
    Instr.ext32ub.width = Instr.ext32sb.width ∧ Instr.ext32ub.little = Instr.ext32sb.little ∧ ready s32 e32 ∧
    (answer (exec .ext32ub s32)).map RspData.ok = some true ∧ (answer (exec .ext32sb s32)).map RspData.ok = some true := by
  decide

theorem witness_SignedSixtyFourBitResultsAreNonNegative :
    s64.q.head? = some e64 ∧ s64.rsp.valid = false ∧ (answer (exec .ext64sb s64)).map RspData.ok = some true := by decide

theorem witness_ReencodingAValueGivesTheBytesBack :
    Instr.ext32sl.isFast = true ∧ ready s32 e32 ∧ (answer (exec .ext32sl s32)).map RspData.ok = some true ∧
    precheck e32.req Instr.ext32sl.width = none := by decide

/-- The same four bytes in two memories, read by EXT8U with either word and by EXT32SB. -/
theorem witness_FastResponseDependsOnlyOnTheBytesRead :
    ready s32 e32 ∧ ready (holding (cells 0 [0xFE, 0xDC, 0xBA, 0x98]) (entry 0 4 0 0x20)) (entry 0 4 0 0x20) ∧
    precheck e32.req 32 = none ∧ precheck (entry 0 4 0 0x20).req 32 = none ∧
    memRead mem23 64 (effAddr 64 e32.req) 4 =
      memRead (cells 0 [0xFE, 0xDC, 0xBA, 0x98]) 64 (effAddr 64 (entry 0 4 0 0x20).req) 4 ∧
    (Instr.ext8u true).width = (Instr.ext8u false).width ∧ (8 < (Instr.ext8u true).width → true = false) := by decide

theorem witness_FastValueDenotesItsPattern :
    Instr.ext32sb.isFast = true ∧ ready s32 e32 ∧ precheck e32.req 32 = none ∧
    memRead s32.mem s32.cfg.addrW (effAddr s32.cfg.addrW e32.req) 4 = some [0xFE, 0xDC, 0xBA, 0x98] ∧
    (answer (exec .ext32sb s32)).map RspData.ok = some true := by decide

theorem witness_FastPathWaitsForTheMemory :
    Instr.ext32ub.isFast = true ∧ precheck e32.req 32 = none ∧
    (s32Waiting.q.head? = some e32 ∧ s32Waiting.memPort.rspValid = false ∧ s32Waiting.memPort.waiting = true) ∧
    (s32Shut.q.head? = some e32 ∧ s32Shut.memPort.rspValid = false ∧ s32Shut.memPort.waiting = false ∧
      s32Shut.memPort.reqReady = false) ∧
    (s32Slow.q.head? = some e32 ∧ s32Slow.memPort.rspValid = false ∧ s32Slow.memPort.waiting = false ∧
      s32Slow.memPort.reqReady = true ∧ s32Slow.memPort.prompt = false) := by decide

theorem witness_LateMemoryAnswerCompletesTheRequest :
    Instr.ext32ub.isFast = true ∧ precheck e32.req 32 = none ∧
    (s32Answered.headIs e32 ∧ s32Answered.memPort.rspValid = true ∧ s32Answered.memPort.rspErr = false) ∧
    (s32Failed.headIs e32 ∧ s32Failed.memPort.rspValid = true ∧ s32Failed.memPort.rspErr = true) := by decide

theorem witness_MemoryLatencyDoesNotChangeTheResponse :
    Instr.ext32ub.isFast = true ∧ s32.headIs e32 ∧ precheck e32.req 32 = none ∧ s32.memPort.answersNow := by decide

theorem witness_GenericPathWaitsForTheDecoder :
    precheck e12.req 12 = none ∧
    (s12Waiting.q.head? = some e12 ∧ s12Waiting.gen.rspValid = false ∧ s12Waiting.gen.waiting = true) ∧
    (s12Shut.q.head? = some e12 ∧ s12Shut.gen.rspValid = false ∧ s12Shut.gen.waiting = false ∧
      s12Shut.gen.reqReady = false) ∧
    (s12Slow.q.head? = some e12 ∧ s12Slow.gen.rspValid = false ∧ s12Slow.gen.waiting = false ∧
      s12Slow.gen.reqReady = true ∧ s12Slow.gen.prompt = false) := by decide

/-- Both ends of the width set, and each way the request can go. -/
theorem witness_ExtractThroughTheGenericDecoder :
    genericWidth 1 = true ∧ genericWidth 63 = true ∧ genericWidth 12 = true ∧ ready s12 e12 ∧ precheck e12.req 12 = none ∧
    ready (holding mem22 (entry 0x1000 5 0x28 1)) (entry 0x1000 5 0x28 1) ∧
    ready (holding mem22 (entry 0x1000 5 0x27 1)) (entry 0x1000 5 0x27 1) ∧
    ready (holding mem24 (entry 0x2001 16 0x20 0x18)) (entry 0x2001 16 0x20 0x18) := by decide

theorem witness_GenericAnswerPassesThroughUnchanged :
    precheck e12.req 12 = none ∧ (s12Answered.headIs e12 ∧ s12Answered.gen.rspValid = true ∧ s12Answered.gen.rspOk = true) ∧
    (s12Failed.headIs e12 ∧ s12Failed.gen.rspValid = true ∧ s12Failed.gen.rspOk = false) := by decide

/-- A generic request at a byte boundary, and one that starts at the last bit of 0x34: 0 01010110 011 in stream order (R158). -/
def g24 : GenReq := { ptr := 0x3001, subOff := 0, width := 24, le := true, sgn := true, avail := 7 }
def g12 : GenReq := { ptr := 0x3001, subOff := 7, width := 12, le := false, sgn := false, avail := 7 }

/-- AVAIL exactly the bytes asked for. -/
theorem witness_GenericUnitsMeetTheByteMultipleLaw :
    ({ g24 with avail := 3 } : GenReq).subOff = 0 ∧ g24.width.toNat % 8 = 0 ∧ 0 < g24.width.toNat ∧ g24.width.toNat < 64 ∧
    g24.width.toNat / 8 ≤ ({ g24 with avail := 3 } : GenReq).avail ∧
    memRead mem25 64 g24.ptr (g24.width.toNat / 8) = some [0x34, 0x56, 0x78] := by decide

theorem witness_GenericUnitsMeetTheExtensionLaw :
    (g12.width.toNat < 64 ∧ genericAnswer .reference mem25 64 g12 = some 0x2B3 ∧ g12.sgn = false) ∧
    (g24.width.toNat < 64 ∧ genericAnswer .conforming mem25 64 g24 = some 0x785634 ∧ g24.sgn = true) ∧
    (memRead mem25 64 g24.ptr 3 = some [0x34, 0x56, 0x78] ∧
      memRead mem25 64 ({ g24 with sgn := false } : GenReq).ptr 3 = some [0x34, 0x56, 0x78] ∧
      (genericAnswer .conforming mem25 64 { g24 with sgn := false }).isSome = true) := by decide

theorem witness_ReferenceDecoderAgreesOnWholeBytes :
    (List.replicate 56 true).length = 56 ∧ 56 % 8 = 0 ∧ 56 < 64 := by decide

theorem witness_GenericUnitsFailOnlyOnAReadError :
    genericWidth 12 = true ∧ precheck e12.req 12 = none ∧ genericWidth 24 = true ∧
    precheck (entry 0x2001 16 0x20 0x18).req 24 = none ∧ memRead mem24 64 0x2005 3 = none ∧
    ready s12 e12 ∧ s12.cfg.addrW = 64 ∧ s12.mem = mem25 ∧ completes (exec (.extg 12 true true) s12) ∧
    ready (holding mem24 (entry 0x2001 16 0x20 0x18)) (entry 0x2001 16 0x20 0x18) := by
  refine ⟨?_, ?_, ?_, ?_, ?_, ?_, rfl, rfl, rfl, ?_⟩ <;> decide

theorem witness_WholeByteGenericWidthsAgreeWithTheFastPath :
    s24.headIs e24 ∧ s24.gen.answersNow ∧ precheck e24.req 24 = none ∧
    memRead s24.mem s24.cfg.addrW (effAddr s24.cfg.addrW e24.req) 3 = some [0x56, 0x78, 0x9A] := by decide

theorem witness_StoredByteIsReadBack :
    (fed s32 [.storeByte 0x2006 0xAA]).inputs = .storeByte 0x2006 0xAA :: [] ∧
    (fed s32 [.breakByte (2 ^ 64)]).inputs = .breakByte (2 ^ 64) :: [] := ⟨rfl, rfl⟩

theorem witness_NoStepOfTheBlockWritesMemory :
    completes (step s32) ∧ (∀ a b, s32.inputs.head? ≠ some (.storeByte a b)) ∧
    (∀ a, s32.inputs.head? ≠ some (.breakByte a)) :=
  ⟨by decide, fun _ _ => nofun, fun _ => nofun⟩

/-- A byte that the second of two requests reads, and not the first. -/
theorem witness_WriteInFlightMarksItsReaders :
    (fed sFull [.storeByte 0x2009 0xAA]).inputs = .storeByte 0x2009 0xAA :: [] ∧
    sFull.q[0]? = some e32 ∧ sFull.q[1]? = some e64 ∧
    (readWindow 64 e32.req).contains 0x2009 = false ∧ (readWindow 64 e64.req).contains 0x2009 = true := by
  refine ⟨rfl, rfl, rfl, ?_, ?_⟩ <;> decide

theorem witness_WriteInFlightLeavesABoundedResponse :
    Instr.ext64sb.wellFormed = true ∧ (sDisturbed e64).q.head? = some { e64 with disturbed := true } ∧
    precheck e64.req 64 = none ∧ Instr.ext64sb.isFast = true ∧ (sDisturbed e64).memPort.answersNow ∧
    ((s32Answered.withQueue [{ e32 with disturbed := true }]).q.head? = some { e32 with disturbed := true } ∧
      precheck e32.req 32 = none ∧ s32Answered.memPort.rspValid = true) ∧
    ((Instr.extg 12 true true).wellFormed = true ∧ (Instr.extg 12 true true).isFast = false ∧ precheck e12.req 12 = none ∧
      s12.gen.answersNow ∧ s12Answered.gen.rspValid = true) := by decide

theorem witness_AcceptanceLatchesThePort :
    (sPresented.inputs = [] ∧ sPresented.inReset = false ∧ (sPresented.rsp.valid && sPresented.rsp.ready) = false ∧
      sPresented.req.valid = true ∧ sPresented.req.ready = true ∧ sPresented.q.length < sPresented.cfg.pipeDepth) ∧
    (fed s32 [.present e12.req]).inputs = .present e12.req :: [] := by decide

theorem witness_FullQueueAcceptsNothing :
    (completes (step sFull) ∧ sFull.cfg.pipeDepth ≤ sFull.q.length) ∧
    ((nextOf (step sPresented)).map fun t => decide (t.q.length ≠ sPresented.q.length)) = some true ∧
    ((nextOf (step (sFull.withRsp { valid := true, ready := true, data := someValue }))).map fun t =>
      decide (t.q.length ≠ 2 ∧ t.req.ready = true)) = some true := by decide

theorem witness_DeliveryRemovesTheHead :
    ((sResponded true someValue).inputs = [] ∧ (sResponded true someValue).inReset = false ∧
      (sResponded true someValue).rsp.valid = true ∧ (sResponded true someValue).rsp.ready = true ∧ someValue.cause ≠ 7) ∧
    ((sResponded true cause7).rsp.valid = true ∧ cause7.cause = 7) := by decide

theorem witness_ResponseIsHeldUntilTheRequesterIsReady :
    completes (step (sResponded false someValue)) ∧ (sResponded false someValue).rsp.valid = true ∧
    (sResponded false someValue).rsp.ready = false ∧
    (∀ b, (sResponded false someValue).inputs.head? ≠ some (.assertReset b)) :=
  ⟨by decide, rfl, rfl, fun _ => nofun⟩

theorem witness_QueueDrainsInOrder :
    sDraining.inputs = [] ∧ sDraining.inReset = false ∧ sDraining.rsp.valid = false ∧ sDraining.rsp.ready = true ∧
    sDraining.req.valid = false ∧ sDraining.memPort.answersNow ∧ sDraining.gen.answersNow ∧
    (∀ e ∈ sDraining.q, e.disturbed = false) ∧ sDraining.q.length = 2 := by decide

theorem witness_StepRunsTheDecodedInstruction :
    (s32.runsHead ∧ s32.q.head? = some e32 ∧ decode e32.req.ctrl = .ok .ext32ub) ∧
    ((fed s32 [.engineTurn, .withdraw]).inputs = .engineTurn :: [.withdraw] ∧
      (s32.req.valid && s32.req.ready && s32.hasRoom) = false) ∧
    (decodeTableWord 16 0x01BF = some (.extg 63 true true)) :=
  ⟨⟨by decide, by decide, rfl⟩, by decide, rfl⟩

theorem witness_StepComputesExecute : ready s32 e32 ∧ ready s12 e12 := by decide

/-- The same request over memories that differ outside what it reads. -/
theorem witness_ResponseDependsOnlyOnRequestAndBytes :
    ready s32 e32 ∧ ready (holding (memStore mem23 0x2001 0x55) e32) e32 ∧ mem23 ≠ memStore mem23 0x2001 0x55 ∧
    (∀ a ∈ readWindow 64 e32.req, memByte mem23 a = memByte (memStore mem23 0x2001 0x55) a) := by decide

/-- The reset input, released again, and a port that waits to be raised. -/
theorem witness_ResetDropsEverythingInFlight :
    (fed s32Waiting [.assertReset true]).inputs = .assertReset true :: [] ∧
    (completes (step (idle.withInReset true)) ∧ (idle.withInReset true).inReset = true ∧ idle.q = []) ∧
    (idle.inputs = [] ∧ idle.inReset = false ∧ idle.rsp.valid = false ∧ idle.req.ready = false ∧ 1 ≤ idle.cfg.pipeDepth) := by
  decide

theorem witness_StaleAnswersAreDiscarded :
    (fed s32Waiting [.assertReset false]).inputs = .assertReset false :: [] ∧
    (fed s32 [.memStaleAnswer]).inputs = .memStaleAnswer :: [] ∧
    (fed s32 [.genStaleAnswer]).inputs = .genStaleAnswer :: [] ∧
    ((fed s32 [.memAnswer true]).inputs = .memAnswer true :: [] ∧ s32.memPort.waiting = false) ∧
    ((fed s32 [.genAnswer]).inputs = .genAnswer :: [] ∧ s32.gen.waiting = false) ∧
    ((fed s32 [.genAnswerWith true 1]).inputs = .genAnswerWith true 1 :: [] ∧ s32.gen.waiting = false) := by decide

theorem witness_MemoryAnswersTheOutstandingRead :
    (fed s32Waiting [.memAnswer true]).inputs = .memAnswer true :: [] ∧ s32Waiting.memPort.waiting = true ∧
    (fed s32Waiting [.memAnswer false]).inputs = .memAnswer false :: [] ∧
    memRead s32Waiting.mem 64 s32Waiting.memPort.addr s32Waiting.memPort.nbytes.toNat = some [0xFE, 0xDC, 0xBA, 0x98] ∧
    memRead (s32Waiting.withMem []).mem 64 s32Waiting.memPort.addr s32Waiting.memPort.nbytes.toNat = none := by decide

theorem witness_DecoderAnswersTheOutstandingRequest :
    ((fed s12Waiting [.genAnswer]).inputs = .genAnswer :: [] ∧ s12Waiting.gen.waiting = true) ∧
    (fed s12Waiting [.genAnswerWith true 7]).inputs = .genAnswerWith true 7 :: [] := by decide

theorem witness_ParametersNeverChange : completes (step s32) ∧ completes (step (fed s32 [.assertReset false])) := by decide

/-- A machine in the middle of a read meets the invariant. -/
theorem witness_Inv : s32Waiting.Inv where
  addrW_pos := by decide
  depth_pos := by decide
  mem_wf := by decide
  mem_fits := by decide
  port_fits := by unfold Request.fits; decide
  queue_fits := by unfold Request.fits; decide
  queue_bound := by decide
  ready_room := by decide
  response_head := by decide
  response_coherent := by unfold RspData.coherent; decide
  received_coherent := by intro d hd; cases hd
  reset_idle := by decide
  mem_phases := by decide
  mem_traffic := fun _ => ⟨rfl, e32, .ext32ub, rfl, rfl, rfl, by decide, by decide, by decide⟩
  mem_lanes := by decide
  gen_phases := by decide
  gen_traffic := fun h => by
    rcases h with h | h | h <;> cases h

theorem witness_StepKeepsTheInvariant : s32Waiting.Inv ∧ completes (step s32Waiting) ∧
    completes (step (fed s32Waiting [.memAnswer false])) := ⟨witness_Inv, by decide, by decide⟩

theorem witness_InvariantHoldsAtReset : 1 ≤ idle.cfg.addrW ∧ 1 ≤ idle.cfg.pipeDepth := by decide

/-- The third clause's hypothesis is met where the port shows cause 7. -/
theorem witness_NoStepStops : s32Waiting.Inv ∧ step (sResponded true cause7) = .fault .reservedCause := ⟨witness_Inv, rfl⟩

end Sys2Proof.Tests
end

/-! Which instruction a control word decodes to, by its fields (30_encoding.md R73, R74). -/

namespace Sys2Proof

/-- A word with a reserved bit set, or a width outside 1..64, is all that decoding rejects (R76). -/
theorem decode_error_fields {c : CtrlWord} {x : Illegal} (h : decode c = .error x) :
    ctrlRsvd c ≠ 0 ∨ (ctrlWidth c).toNat = 0 ∨ 64 < (ctrlWidth c).toNat := by
  unfold decode at h
  split_ifs at h with hrsvd hzero hbig
  · exact .inl hrsvd
  · exact .inr (.inl (by simp [hzero]))
  · exact .inr (.inr hbig)

/-- A legal word has no reserved bit, a width of 1 to 64, and `decodeLegal` names its instruction. -/
theorem decode_ok_fields {c : CtrlWord} {i : Instr} (h : decode c = .ok i) :
    ctrlRsvd c = 0 ∧ (ctrlWidth c).toNat ≠ 0 ∧ (ctrlWidth c).toNat ≤ 64 ∧
      i = decodeLegal (ctrlWidth c) (ctrlSgn c) (ctrlLe c) := by
  unfold decode at h
  split_ifs at h with hrsvd hzero hbig
  refine ⟨not_not.1 hrsvd, fun h0 => hzero (BitVec.eq_of_toNat_eq (by simpa using h0)), by omega, ?_⟩
  simpa using h.symm

section decodeLegal

variable (w : BitVec 7) (sgn le : Bool)

@[simp] theorem decodeLegal_width : (decodeLegal w sgn le).width = w.toNat := by
  unfold decodeLegal
  split_ifs <;> simp_all [Instr.width]

@[simp] theorem decodeLegal_signed : (decodeLegal w sgn le).signed = sgn := by
  unfold decodeLegal
  split_ifs <;> simp_all [Instr.signed]

@[simp] theorem decodeLegal_little : (decodeLegal w sgn le).little = le := by
  unfold decodeLegal
  split_ifs <;> simp_all [Instr.little]

/-- The generic path takes exactly the widths that are none of the four fast ones (R73). -/
theorem decodeLegal_isFast :
    (decodeLegal w sgn le).isFast = true ↔ w = 8 ∨ w = 16 ∨ w = 32 ∨ w = 64 := by
  unfold decodeLegal
  split_ifs <;> simp_all [Instr.isFast]

end decodeLegal

/-- A decoded instruction has the width and the flags of its word. -/
theorem decode_ok_operands {c : CtrlWord} {i : Instr} (h : decode c = .ok i) :
    i.width = (ctrlWidth c).toNat ∧ i.signed = ctrlSgn c ∧ i.little = ctrlLe c := by
  obtain ⟨-, -, -, rfl⟩ := decode_ok_fields h
  simp

/-- A decoded instruction takes the fast path exactly if its width is 8, 16, 32 or 64 (R73). -/
theorem decode_ok_isFast {c : CtrlWord} {i : Instr} (h : decode c = .ok i) :
    i.isFast = true ↔ i.width = 8 ∨ i.width = 16 ∨ i.width = 32 ∨ i.width = 64 := by
  obtain ⟨-, -, -, rfl⟩ := decode_ok_fields h
  simp [decodeLegal_isFast, BitVec.toNat_eq]

theorem Instr.width_of_isFast {i : Instr} (h : i.isFast = true) :
    i.width = 8 ∨ i.width = 16 ∨ i.width = 32 ∨ i.width = 64 := by
  cases i <;> simp_all [Instr.isFast, Instr.width]

/-- An instruction off the fast path is an EXTG. -/
theorem Instr.eq_extg_of_not_isFast {i : Instr} (h : i.isFast = false) : ∃ w sgn le, i = .extg w sgn le := by
  cases i <;> simp_all [Instr.isFast]

end Sys2Proof

/-! What an instruction and a step leave unchanged: an instruction touches the response registers, the two channels and the
count of free responses, and nothing else. -/

namespace Sys2Proof.Machine

/-- From `s` to `t`, only what an instruction drives may have changed. -/
structure KeptByExec (s t : State) : Prop where
  cfg : t.cfg = s.cfg
  req : t.req = s.req
  rspReady : t.rsp.ready = s.rsp.ready
  q : t.q = s.q
  mem : t.mem = s.mem
  inReset : t.inReset = s.inReset
  received : t.received = s.received
  inputs : t.inputs = s.inputs

theorem KeptByExec.refl (s : State) : KeptByExec s s := ⟨rfl, rfl, rfl, rfl, rfl, rfl, rfl, rfl⟩

theorem KeptByExec.trans {s t u : State} (h : KeptByExec s t) (h' : KeptByExec t u) : KeptByExec s u where
  cfg := h'.cfg.trans h.cfg
  req := h'.req.trans h.req
  rspReady := h'.rspReady.trans h.rspReady
  q := h'.q.trans h.q
  mem := h'.mem.trans h.mem
  inReset := h'.inReset.trans h.inReset
  received := h'.received.trans h.received
  inputs := h'.inputs.trans h.inputs

theorem KeptByExec.withMemPort (s : State) (p : MemPort) : KeptByExec s (s.withMemPort p) :=
  ⟨rfl, rfl, rfl, rfl, rfl, rfl, rfl, rfl⟩

theorem KeptByExec.withGen (s : State) (p : GenPort) : KeptByExec s (s.withGen p) :=
  ⟨rfl, rfl, rfl, rfl, rfl, rfl, rfl, rfl⟩

theorem KeptByExec.respond (s : State) (r : Response) : KeptByExec s (s.respond r) :=
  ⟨rfl, rfl, rfl, rfl, rfl, rfl, rfl, rfl⟩

theorem KeptByExec.settle (s : State) (e : Entry) (w : Nat) (sgn : Bool) (r : Response) :
    KeptByExec s (s.settle e w sgn r) := by
  rcases settle_cases s e w sgn r with ⟨-, h⟩ | ⟨-, h⟩ <;> rw [h]
  · exact .respond s r
  · exact ⟨rfl, rfl, rfl, rfl, rfl, rfl, rfl, rfl⟩

theorem loadBytes_wait_keeps {s t : State} {a k : Nat} (h : loadBytes s a k = .wait t) : KeptByExec s t := by
  obtain ⟨-, ⟨-, rfl⟩ | ⟨-, -, rfl⟩ | ⟨-, -, -, rfl⟩⟩ := loadBytes_wait h
  · exact .refl _
  · exact .withMemPort s _
  · exact .withMemPort s _

theorem loadBytes_done_keeps {s t : State} {a k : Nat} {bs : Option (List Byte)} (h : loadBytes s a k = .done bs t) :
    KeptByExec s t := by
  obtain ⟨-, -, rfl⟩ | ⟨-, -, rfl⟩ := loadBytes_done h <;> exact .withMemPort s _

theorem genericCall_wait_keeps {s t : State} {g : GenReq} (h : genericCall s g = .wait t) : KeptByExec s t := by
  obtain ⟨-, ⟨-, rfl⟩ | ⟨-, -, rfl⟩ | ⟨-, -, -, rfl⟩⟩ := genericCall_wait h
  · exact .refl _
  · exact .withGen s _
  · exact .withGen s _

theorem genericCall_done_keeps {s t : State} {g : GenReq} {v : Option Value} (h : genericCall s g = .done v t) :
    KeptByExec s t := by
  obtain ⟨-, -, rfl⟩ | ⟨-, -, rfl⟩ := genericCall_done h <;> exact .withGen s _

theorem fastPath_keeps {s t : State} {w : Nat} {sgn : Bool} {value : List Byte → Response}
    (h : fastPath s w sgn value = .next t) : KeptByExec s t := by
  obtain ⟨-, rfl⟩ | ⟨e, rest, -, ⟨c, -, rfl⟩ | ⟨-, hwait | ⟨s', hdone, rfl⟩ | ⟨bs, s', hdone, rfl⟩⟩⟩ := fastPath_cases h
  · exact .refl _
  · exact .respond s _
  · exact loadBytes_wait_keeps hwait
  · exact (loadBytes_done_keeps hdone).trans (.settle ..)
  · exact (loadBytes_done_keeps hdone).trans (.settle ..)

theorem execExtg_keeps {s t : State} {w : BitVec 7} {sgn le : Bool} (h : execExtg w sgn le s = .next t) :
    KeptByExec s t := by
  obtain ⟨-, rfl⟩ | ⟨e, rest, -, ⟨c, -, rfl⟩ | ⟨-, hwait | ⟨s', hdone, rfl⟩ | ⟨v, s', hdone, rfl⟩⟩⟩ := execExtg_cases h
  · exact .refl _
  · exact .respond s _
  · exact genericCall_wait_keeps hwait
  · exact (genericCall_done_keeps hdone).trans (.settle ..)
  · exact (genericCall_done_keeps hdone).trans (.settle ..)

end Sys2Proof.Machine

/-! The fourteen fast-path instructions are one function of WIDTH, SGN and LE (41_fastpath.md R110 to R113, R131), and what an
instruction answers when its port answers at once. -/

namespace Sys2Proof.Machine

/-- On a 64-bit pattern either extension is the pattern itself. -/
theorem extend64_eq_self (sgn : Bool) (v : Value) : extend64 sgn v = v := by
  cases sgn <;> simp [extend64, sext64, zext64]

theorem fastResponse_64_unsigned (le : Bool) (bs : List Byte) :
    fastResponse 64 false le bs = .ok (if le then leAssemble 64 bs else beAssemble 64 bs) false := by
  cases le <;> simp [fastResponse, zext64]

theorem fastResponse_64_signed (le : Bool) (bs : List Byte) :
    fastResponse 64 true le bs = signCheck64 (if le then leAssemble 64 bs else beAssemble 64 bs) := by
  cases le <;> simp [fastResponse, zext64, signCheck64]

/-- Each fast-path instruction runs the shared fast path with the four stages of its own width and flags. -/
theorem exec_fast {i : Instr} (h : i.isFast = true) (s : State) :
    exec i s = fastPath s i.width i.signed (fastResponse i.width i.signed i.little) := by
  cases i with
  | ext64ub => exact congrArg (fastPath s 64 false) (funext fun bs => (fastResponse_64_unsigned false bs).symm)
  | ext64ul => exact congrArg (fastPath s 64 false) (funext fun bs => (fastResponse_64_unsigned true bs).symm)
  | ext64sb => exact congrArg (fastPath s 64 true) (funext fun bs => (fastResponse_64_signed false bs).symm)
  | ext64sl => exact congrArg (fastPath s 64 true) (funext fun bs => (fastResponse_64_signed true bs).symm)
  | extg => cases h
  | _ => rfl

theorem exec_extg (w : BitVec 7) (sgn le : Bool) (s : State) : exec (.extg w sgn le) s = execExtg w sgn le s := rfl

theorem exec_keeps {i : Instr} {s t : State} (h : exec i s = .next t) : KeptByExec s t := by
  cases hfast : i.isFast with
  | true => exact fastPath_keeps ((exec_fast hfast s).symm.trans h)
  | false =>
    obtain ⟨w, sgn, le, rfl⟩ := Instr.eq_extg_of_not_isFast hfast
    exact execExtg_keeps h

/-- A failed pre-check is answered at once, on either path. -/
theorem exec_precheck_some {i : Instr} {s : State} {e : Entry} {c : Cause} (hq : s.q.head? = some e)
    (hc : precheck e.req i.width = some c) : exec i s = .next (s.respond (.fail c)) := by
  obtain ⟨rest, hq⟩ := List.head?_eq_some_iff.1 hq
  cases hfast : i.isFast with
  | true => simp [exec_fast hfast, fastPath, hq, hc]
  | false =>
    obtain ⟨w, sgn, le, rfl⟩ := Instr.eq_extg_of_not_isFast hfast
    have hc : precheck e.req w.toNat = some c := hc
    simp [exec_extg, execExtg, hq, hc]

/-- What the fast path answers to a read's outcome: an error is BUS_ERROR, bytes go through the four stages. -/
def readResponse (i : Instr) (bs : Option (List Byte)) : Response :=
  bs.elim (.fail .busError) (fastResponse i.width i.signed i.little)

/-- What the generic path answers to the decoder's outcome (R152). -/
def decoderResponse (sgn : Bool) (v : Option Value) : Response := v.elim (.fail .genericFail) (.ok · sgn)

/-- A fast-path request past its pre-checks, over a prompt memory, is answered from the bytes read. -/
theorem exec_fast_now {i : Instr} {s : State} {e : Entry} (hfast : i.isFast = true) (hhead : s.headIs e)
    (hnow : s.memPort.answersNow) (hpre : precheck e.req i.width = none) :
    ∃ p, exec i s = .next ((s.withMemPort p).respond
      (readResponse i (memRead s.mem s.cfg.addrW (effAddr s.cfg.addrW e.req) (i.width / 8)))) := by
  obtain ⟨hq, hundisturbed⟩ := hhead
  obtain ⟨rest, hq⟩ := List.head?_eq_some_iff.1 hq
  simp only [exec_fast hfast, fastPath, hq, hpre, loadBytes_now _ _ hnow]
  cases memRead s.mem s.cfg.addrW (effAddr s.cfg.addrW e.req) (i.width / 8) with
  | none => exact ⟨_, congrArg _ (settle_undisturbed hundisturbed)⟩
  | some bs => exact ⟨_, congrArg _ (settle_undisturbed hundisturbed)⟩

/-- A generic request past its pre-checks, with a prompt decoder, is answered with the decoder's answer. -/
theorem exec_extg_now {w : BitVec 7} (sgn le : Bool) {s : State} {e : Entry} (hhead : s.headIs e)
    (hnow : s.gen.answersNow) (hpre : precheck e.req w.toNat = none) :
    ∃ p, exec (.extg w sgn le) s = .next ((s.withGen p).respond (decoderResponse sgn
      (genericAnswer s.gen.unit s.mem s.cfg.addrW (genericRequest s.cfg.addrW e.req w sgn le)))) := by
  obtain ⟨hq, hundisturbed⟩ := hhead
  obtain ⟨rest, hq⟩ := List.head?_eq_some_iff.1 hq
  simp only [exec_extg, execExtg, hq, hpre, genericCall_now _ hnow]
  cases genericAnswer s.gen.unit s.mem s.cfg.addrW (genericRequest s.cfg.addrW e.req w sgn le) with
  | none => exact ⟨_, congrArg _ (settle_undisturbed hundisturbed)⟩
  | some v => exact ⟨_, congrArg _ (settle_undisturbed hundisturbed)⟩

end Sys2Proof.Machine

/-! No step changes ADDR_W or PIPE_DEPTH (00_scope.md R7). -/

namespace Sys2Proof.Machine

theorem runHead_keeps {s t : State} {e : Entry} (h : runHead s e = .next t) : KeptByExec s t := by
  unfold runHead at h
  split at h
  · cases h
    exact .respond s _
  · exact exec_keeps h

theorem memAnswer_cfg (s : State) (err : Bool) : (s.memAnswer err).cfg = s.cfg := by
  unfold State.memAnswer
  split <;> rfl

theorem genAnswer_cfg (s : State) (ok : Bool) (v : Value) : (s.genAnswer ok v).cfg = s.cfg := by
  unfold State.genAnswer
  split <;> rfl

theorem deliver_cfg {s t : State} (h : s.deliver = .next t) : t.cfg = s.cfg := by
  obtain ⟨-, hd⟩ | ⟨-, hd⟩ := deliver_cases s <;> rw [hd] at h <;> cases h
  rfl

theorem engineTurn_cfg {s t : State} (h : engineTurn s = .next t) : t.cfg = s.cfg := by
  obtain ⟨-, ht⟩ | ⟨-, ⟨-, -, ht⟩ | ⟨-, ⟨-, ht⟩ | ⟨-, ⟨-, ht⟩ | ⟨-, ⟨-, ht⟩ | ⟨e, rest, -, ht⟩⟩⟩⟩⟩ :=
    engineTurn_cases s <;> rw [ht] at h
  · cases h; rfl
  · exact deliver_cfg h
  · cases h; rfl
  · cases h; rfl
  · cases h; rfl
  · exact (runHead_keeps h).cfg

theorem applyInput_cfg {i : Input} {s t : State} (h : applyInput i s = .next t) : t.cfg = s.cfg := by
  cases i with
  | engineTurn => exact engineTurn_cfg h
  | memAnswer err => cases h; exact memAnswer_cfg s err
  | genAnswer => cases h; exact genAnswer_cfg s _ _
  | genAnswerWith ok v => cases h; exact genAnswer_cfg s ok v
  | _ => cases h; rfl

/-- A step is the engine's turn, or the oldest input. -/
theorem step_cases (s : State) :
    (s.inputs = [] ∧ step s = engineTurn s) ∨
    ∃ i rest, s.inputs = i :: rest ∧ step s = applyInput i (s.withInputs rest) := by
  unfold step stepOnce
  cases s.inputs with
  | nil => exact .inl ⟨rfl, rfl⟩
  | cons i rest => exact .inr ⟨i, rest, rfl, rfl⟩

/-- Settles O53: the engine's turn and every input leave `cfg` alone. -/
theorem parametersNeverChange : Obligations.ParametersNeverChange := by
  intro s t h
  obtain ⟨-, hs⟩ | ⟨i, rest, -, hs⟩ := step_cases s <;> rw [hs] at h
  · exact engineTurn_cfg h
  · exact (applyInput_cfg h).trans (State.withInputs_cfg s rest)

end Sys2Proof.Machine

/-! The integer a fast-path value denotes (00_scope.md R13, 41_fastpath.md R112, R113). -/

namespace Sys2Proof.Machine

/-- The pattern that the byte-order stage forms (R111): little endian only if LE is set and there is more than one byte. -/
def fastPattern (w : Nat) (le : Bool) (bs : List Byte) : BitVec w :=
  if le && w != 8 then leAssemble w bs else beAssemble w bs

/-- The four stages over `fastPattern`: the sign check for 64 bits, else the extension. -/
theorem fastResponse_eq (w : Nat) (sgn le : Bool) (bs : List Byte) :
    fastResponse w sgn le bs =
      if w = 64 ∧ sgn = true ∧ (fastPattern w le bs).msb = true then .fail .sign64
      else .ok (extend64 sgn (fastPattern w le bs)) sgn := by
  have hraw : (if w = 8 ∨ le = false then beAssemble w bs else leAssemble w bs) = fastPattern w le bs := by
    unfold fastPattern
    by_cases hw : w = 8 <;> cases le <;> simp [hw]
  simp only [fastResponse, hraw]
  by_cases hw : w = 64
  · subst hw
    simp [extend64_eq_self, zext64]
  · simp [hw]

/-- Extending a pattern as its tag says does not change the integer it denotes. -/
theorem extend64_meaning {w : Nat} (hw : w ≤ 64) (sgn : Bool) (raw : BitVec w) :
    (Response.ok (extend64 sgn raw) sgn).data.meaning = some (if sgn then raw.toInt else (raw.toNat : Int)) := by
  cases sgn with
  | true => simp [Response.data, RspData.meaning, extend64, sext64, BitVec.toInt_signExtend_of_le hw]
  | false => simp [Response.data, RspData.meaning, extend64, zext64, BitVec.toNat_setWidth_of_le hw]

theorem fastResponse_meaning {w : Nat} (hw : w ≤ 64) {sgn le : Bool} {bs : List Byte}
    (hok : (fastResponse w sgn le bs).data.ok = true) :
    (fastResponse w sgn le bs).data.meaning =
      some (if sgn then (fastPattern w le bs).toInt else ((fastPattern w le bs).toNat : Int)) := by
  rw [fastResponse_eq] at hok ⊢
  by_cases hsign : w = 64 ∧ sgn = true ∧ (fastPattern w le bs).msb = true
  · rw [if_pos hsign] at hok
    cases hok
  · rw [if_neg hsign]
    exact extend64_meaning hw sgn _

/-- Settles O25: an OK response of the fast path is the extension of the pattern read. -/
theorem fastValueDenotesItsPattern : Obligations.FastValueDenotesItsPattern := by
  intro i s t e bs hfast hhead hnow hpre hread hexec hok
  have hw : i.width ≤ 64 := by rcases Instr.width_of_isFast hfast with h | h | h | h <;> omega
  obtain ⟨p, hstep⟩ := exec_fast_now hfast hhead hnow hpre
  rw [hexec, hread] at hstep
  cases hstep
  exact fastResponse_meaning hw hok

end Sys2Proof.Machine

/-! A step that executes the head of the queue answers what `Execute` gives (40_bounds_dispatch.md R90), and `Execute` depends on the
memory only through the bytes of the request's own window (00_scope.md R5, 40_bounds_dispatch.md R98). -/

namespace Sys2Proof.Machine

variable {addrW : Nat} {u : Config.GenericUnit} {m m' : Memory} {r : Request} {i : Instr}

/-- An illegal word is answered before anything else is looked at (R76, R96). -/
theorem execute_illegal {x : Illegal} (h : decode r.ctrl = .error x) : execute addrW u m r = .fail .illegal :=
  if_pos (decode_error_fields h)

/-- `Execute` of a legal request: the cause of the failed pre-check, or the answer of the instruction's path. -/
theorem execute_of_decode (h : decode r.ctrl = .ok i) :
    execute addrW u m r = (precheck r i.width).elim
      (if i.isFast then readResponse i (memRead m addrW (effAddr addrW r) (i.width / 8))
       else decoderResponse i.signed
        (genericAnswer u m addrW (genericRequest addrW r (ctrlWidth r.ctrl) i.signed i.little)))
      Response.fail := by
  obtain ⟨hrsvd, hpos, hle, -⟩ := decode_ok_fields h
  obtain ⟨hwidth, hsgn, hlittle⟩ := decode_ok_operands h
  have hfast := decode_ok_isFast h
  have hlegal : ¬(ctrlRsvd r.ctrl ≠ 0 ∨ (ctrlWidth r.ctrl).toNat = 0 ∨ 64 < (ctrlWidth r.ctrl).toNat) := by
    rintro (h | h | h)
    · exact h hrsvd
    · exact hpos h
    · omega
  unfold execute
  rw [if_neg hlegal, ← hwidth, ← hsgn, ← hlittle]
  unfold precheck exceedsBuffer offsetUnaligned totalBits
  by_cases hpast : 8 * r.len < r.offset.toNat
  · simp [hpast]
  by_cases hshort : 8 * r.len - r.offset.toNat < i.width
  · simp [hpast, hshort]
  by_cases hunaligned : r.offset.toNat % 8 ≠ 0
  · simp [hpast, hshort, hunaligned]
  simp only [hpast, hshort, hunaligned, ← hfast]
  cases i.isFast with
  | true =>
    cases hread : memRead m addrW (effAddr addrW r) (i.width / 8) <;>
      simp_all [readResponse, effAddr, byteOffset]
  | false =>
    cases hanswer : genericAnswer u m addrW (genericRequest addrW r (ctrlWidth r.ctrl) i.signed i.little) <;>
      simp_all [decoderResponse, genericRequest, effAddr, byteOffset, bytesLeft]

/-- The instruction of the head's word answers what `Execute` gives, the ports answering at once. -/
theorem exec_computes_execute {s : State} {e : Entry} (h : decode e.req.ctrl = .ok i) (hhead : s.headIs e)
    (hmem : s.memPort.answersNow) (hgen : s.gen.answersNow) :
    ∃ t, exec i s = .next t ∧
      t.rsp = { s.rsp with valid := true, data := (execute s.cfg.addrW s.gen.unit s.mem e.req).data } := by
  rw [execute_of_decode h]
  cases hpre : precheck e.req i.width with
  | some c => exact ⟨_, exec_precheck_some hhead.1 hpre, rfl⟩
  | none =>
    cases hfast : i.isFast with
    | true =>
      obtain ⟨p, hexec⟩ := exec_fast_now hfast hhead hmem hpre
      exact ⟨_, hexec, rfl⟩
    | false =>
      obtain ⟨w, sgn, le, rfl⟩ := Instr.eq_extg_of_not_isFast hfast
      obtain ⟨p, hexec⟩ := exec_extg_now sgn le hhead hgen hpre
      have hw : w = ctrlWidth e.req.ctrl := BitVec.eq_of_toNat_eq (decode_ok_operands h).1
      rw [hw] at hexec ⊢
      exact ⟨_, hexec, rfl⟩

/-- Where the engine's next move is the head, a step is that move. -/
theorem step_of_runsHead {s : State} {e : Entry} (hruns : s.runsHead) (hq : s.q.head? = some e) :
    step s = runHead s e := by
  obtain ⟨hinputs, hreset, hrsp, hreq⟩ := hruns
  obtain ⟨rest, hq⟩ := List.head?_eq_some_iff.1 hq
  simp [step, stepOnce, engineTurn, hinputs, hreset, hrsp, hreq, hq]

/-- A step on the head of the queue puts the response of `Execute` on the port (R90). -/
theorem step_computes_execute {s : State} {e : Entry} (hruns : s.runsHead) (hhead : s.headIs e)
    (hmem : s.memPort.answersNow) (hgen : s.gen.answersNow) :
    ∃ t, step s = .next t ∧
      t.rsp = { s.rsp with valid := true, data := (execute s.cfg.addrW s.gen.unit s.mem e.req).data } := by
  rw [step_of_runsHead hruns hhead.1]
  unfold runHead
  cases hdecode : decode e.req.ctrl with
  | error x => exact ⟨_, rfl, by rw [execute_illegal hdecode]; rfl⟩
  | ok i => exact exec_computes_execute hdecode hhead hmem hgen

theorem mem_byteAddrs {a k x : Nat} : x ∈ byteAddrs addrW a k ↔ ∃ j < k, (a + j) % 2 ^ addrW = x := by
  simp [byteAddrs]

/-- A legal request past its pre-checks reads the bytes its width spans (R58). -/
theorem readWindow_of_precheck_none (h : decode r.ctrl = .ok i) (hpre : precheck r i.width = none) :
    readWindow addrW r = byteAddrs addrW (effAddr addrW r) (bytesOf i.width) := by
  rw [(decode_ok_operands h).1] at hpre ⊢
  simp [readWindow, h, hpre]

/-- The attached unit looks at no byte outside the range it is asked for (R156). -/
theorem genericAnswer_congr {g : GenReq}
    (h : ∀ j < bytesOf (g.subOff.toNat + g.width.toNat),
      memByte m ((g.ptr + j) % 2 ^ addrW) = memByte m' ((g.ptr + j) % 2 ^ addrW)) :
    genericAnswer u m addrW g = genericAnswer u m' addrW g := by
  simp only [genericAnswer, memRead_congr h]

/-- `Execute` depends on the memory only through the bytes in the request's window. -/
theorem execute_congr (u : Config.GenericUnit) (hbytes : ∀ a ∈ readWindow addrW r, memByte m a = memByte m' a) :
    execute addrW u m r = execute addrW u m' r := by
  cases hdecode : decode r.ctrl with
  | error x => rw [execute_illegal hdecode, execute_illegal hdecode]
  | ok i =>
    rw [execute_of_decode hdecode, execute_of_decode hdecode]
    cases hpre : precheck r i.width with
    | some c => rfl
    | none =>
      have hsame : ∀ j < bytesOf i.width, memByte m ((effAddr addrW r + j) % 2 ^ addrW) =
          memByte m' ((effAddr addrW r + j) % 2 ^ addrW) := fun j hj =>
        hbytes _ (readWindow_of_precheck_none hdecode hpre ▸ mem_byteAddrs.2 ⟨j, hj, rfl⟩)
      have hread : memRead m addrW (effAddr addrW r) (i.width / 8) =
          memRead m' addrW (effAddr addrW r) (i.width / 8) :=
        memRead_congr fun j hj => hsame j (by unfold bytesOf; omega)
      have hanswer : genericAnswer u m addrW (genericRequest addrW r (ctrlWidth r.ctrl) i.signed i.little) =
          genericAnswer u m' addrW (genericRequest addrW r (ctrlWidth r.ctrl) i.signed i.little) :=
        genericAnswer_congr fun j hj => hsame j (by
          simpa [genericRequest, (decode_ok_operands hdecode).1] using hj)
      rw [hread, hanswer]

/-- Settles O49: both machines answer what `Execute` gives, and it reads only the request and the bytes they share. -/
theorem responseDependsOnlyOnRequestAndBytes : Obligations.ResponseDependsOnlyOnRequestAndBytes := by
  intro s s' e e' hruns hruns' hhead hhead' hmem hmem' hgen hgen' hreq haddrW hunit hbytes
  obtain ⟨t, hstep, hrsp⟩ := step_computes_execute hruns hhead hmem hgen
  obtain ⟨t', hstep', hrsp'⟩ := step_computes_execute hruns' hhead' hmem' hgen'
  have hexecute := execute_congr s.gen.unit hbytes
  rw [haddrW, hunit, hreq] at hexecute
  exact ⟨t, t', hstep, hstep', by rw [hrsp, hrsp', haddrW, hunit, hreq, hexecute], by rw [hrsp], by rw [hrsp']⟩

end Sys2Proof.Machine

/-! What the shared operations of an instruction leave on the response port and on the two channels (10_state.md R30 to R37). -/

namespace Sys2Proof.Machine

/-- A response encodes as registers that agree with one another: no cause has the code 0 or 7. -/
theorem Response.data_coherent (r : Response) : r.data.coherent := by
  cases r with
  | ok v sgn => simp [Response.data, RspData.coherent]
  | fail c => cases c <;> simp [Response.data, RspData.coherent, Cause.code]

theorem RspData.reset_coherent : RspData.reset.coherent := by simp [RspData.reset, RspData.coherent]

@[simp] theorem State.settle_memPort (s : State) (e : Entry) (w : Nat) (sgn : Bool) (r : Response) :
    (s.settle e w sgn r).memPort = s.memPort := by
  rcases settle_cases s e w sgn r with ⟨-, h⟩ | ⟨-, h⟩ <;> rw [h] <;> rfl

@[simp] theorem State.settle_gen (s : State) (e : Entry) (w : Nat) (sgn : Bool) (r : Response) :
    (s.settle e w sgn r).gen = s.gen := by
  rcases settle_cases s e w sgn r with ⟨-, h⟩ | ⟨-, h⟩ <;> rw [h] <;> rfl

theorem MemPort.not_busy_iff {p : MemPort} :
    ¬p.busy ↔ p.reqValid = false ∧ p.waiting = false ∧ p.rspValid = false := by
  simp [MemPort.busy]

theorem GenPort.not_busy_iff {p : GenPort} :
    ¬p.busy ↔ p.reqValid = false ∧ p.waiting = false ∧ p.rspValid = false := by
  simp [GenPort.busy]

end Sys2Proof.Machine

/-! The engine's moves and the answers of the two agents, each as updates of the state (10_state.md R29, R36, R37, R40). -/

namespace Sys2Proof.Machine

variable {s : State}

theorem State.hasRoom_iff : s.hasRoom = true ↔ s.q.length < s.cfg.pipeDepth := by simp [State.hasRoom]

/-- Acceptance, as one update of the request port and one of the queue. -/
theorem accept_eq (s : State) :
    s.accept = (s.withReq { s.req with valid := false, ready := decide (s.q.length + 1 < s.cfg.pipeDepth) }).withQueue
      (s.q ++ [{ req := s.req.fields, disturbed := false }]) := by
  simp [State.accept, State.driveReady, State.hasRoom, State.withReq, State.withQueue]

@[simp] theorem markWindow_length (addrW a : Nat) (q : List Entry) : (markWindow addrW a q).length = q.length := by
  simp [markWindow]

/-- Marking changes no request. -/
theorem markWindow_map_req (addrW a : Nat) (q : List Entry) : (markWindow addrW a q).map Entry.req = q.map Entry.req := by
  simp only [markWindow, List.map_map, List.map_inj_left, Function.comp_apply]
  intro e _
  split <;> rfl

theorem step_of_no_input (h : s.inputs = []) : step s = engineTurn s := by
  obtain ⟨-, hs⟩ | ⟨i, rest, hs, -⟩ := step_cases s
  · exact hs
  · simp [h] at hs

theorem step_of_input {i : Input} {rest : List Input} (h : s.inputs = i :: rest) :
    step s = applyInput i (s.withInputs rest) := by
  simp [step, stepOnce, h]

/-- The engine's turn is a delivery where the response handshake holds. -/
theorem engineTurn_of_response (hreset : s.inReset = false) (hvalid : s.rsp.valid = true) (hready : s.rsp.ready = true) :
    engineTurn s = s.deliver := by
  simp [engineTurn, hreset, hvalid, hready]

/-- The engine's turn is an acceptance where nothing is to be delivered and the request handshake holds. -/
theorem engineTurn_of_request (hreset : s.inReset = false) (hrsp : (s.rsp.valid && s.rsp.ready) = false)
    (hreq : (s.req.valid && s.req.ready && s.hasRoom) = true) : engineTurn s = .next s.accept := by
  simp only [engineTurn, hreset, hrsp, hreq, Bool.false_eq_true, if_false, if_true]

/-- What the memory answers the outstanding read: an error, or what it reads at the driven address. -/
def State.lateRead (s : State) (err : Bool) : Option (List Byte) :=
  if err then none else memRead s.mem s.cfg.addrW s.memPort.addr s.memPort.nbytes.toNat

theorem memAnswer_of_waiting (h : s.memPort.waiting = true) (err : Bool) :
    s.memAnswer err = s.withMemPort
      { s.memPort with
        waiting := false, rspValid := true, rspErr := (s.lateRead err).isNone
        rspData := laneData s.memPort.addr s.memPort.nbytes.toNat (s.lateRead err) } := by
  simp [State.memAnswer, State.lateRead, h]

theorem memAnswer_of_not_waiting (h : s.memPort.waiting = false) (err : Bool) : s.memAnswer err = s := by
  simp [State.memAnswer, h]

theorem genAnswer_of_waiting (h : s.gen.waiting = true) (ok : Bool) (v : Value) :
    s.genAnswer ok v = s.withGen { s.gen with waiting := false, rspValid := true, rspOk := ok, rspValue := v } := by
  simp [State.genAnswer, h]

theorem genAnswer_of_not_waiting (h : s.gen.waiting = false) (ok : Bool) (v : Value) : s.genAnswer ok v = s := by
  simp [State.genAnswer, h]

theorem memAnswer_q (s : State) (err : Bool) : (s.memAnswer err).q = s.q := by
  cases hwait : s.memPort.waiting with
  | false => rw [memAnswer_of_not_waiting hwait]
  | true => rw [memAnswer_of_waiting hwait, State.withMemPort_q]

theorem genAnswer_q (s : State) (ok : Bool) (v : Value) : (s.genAnswer ok v).q = s.q := by
  cases hwait : s.gen.waiting with
  | false => rw [genAnswer_of_not_waiting hwait]
  | true => rw [genAnswer_of_waiting hwait, State.withGen_q]

end Sys2Proof.Machine

/-! How the invariant passes through the updates of the state, one lemma for each part of the state that changes. -/

namespace Sys2Proof.Machine

variable {s t : State} {e : Entry} {i : Instr}

theorem State.Inv.withInputs (h : s.Inv) (l : List Input) : (s.withInputs l).Inv := { h with }

theorem State.Inv.withFreeCount (h : s.Inv) (n : Nat) : (s.withFreeCount n).Inv := { h with }

theorem State.Inv.withReq (h : s.Inv) {p : ReqPort} (hfits : p.fields.fits s.cfg.addrW)
    (hready : p.ready = true → s.q.length < s.cfg.pipeDepth) : (s.withReq p).Inv :=
  { h with port_fits := hfits, ready_room := hready }

theorem State.Inv.withMem (h : s.Inv) {m : Memory} (hwf : Memory.wf m = true) (hfits : ∀ c ∈ m, c.1 < 2 ^ s.cfg.addrW) :
    (s.withMem m).Inv :=
  { h with mem_wf := hwf, mem_fits := hfits }

/-- The queue may grow at its tail, and its entries may be marked: the request at the head stays. -/
theorem State.Inv.withQueue (h : s.Inv) {q : List Entry} (hfits : ∀ e ∈ q, e.req.fits s.cfg.addrW)
    (hbound : q.length ≤ s.cfg.pipeDepth) (hready : s.req.ready = true → q.length < s.cfg.pipeDepth)
    (hreset : s.inReset = true → q = [])
    (hhead : ∀ e, s.q.head? = some e → ∃ e', q.head? = some e' ∧ e'.req = e.req) : (s.withQueue q).Inv :=
  { h with
    queue_fits := hfits
    queue_bound := hbound
    ready_room := hready
    response_head := fun hv hnil => by
      obtain ⟨e, he⟩ := Option.isSome_iff_exists.1 (List.isSome_head?.2 (h.response_head hv))
      obtain ⟨e', he', -⟩ := hhead e he
      have hnil : q = [] := hnil
      simp [hnil] at he'
    reset_idle := fun hr => ⟨hreset hr, (h.reset_idle hr).2⟩
    mem_traffic := fun hb => by
      obtain ⟨hv, e, i, he, hrest⟩ := h.mem_traffic hb
      obtain ⟨e', he', hreq⟩ := hhead e he
      exact ⟨hv, e', i, he', hreq ▸ hrest⟩
    gen_traffic := fun hb => by
      obtain ⟨hv, e, w, sgn, le, he, hrest⟩ := h.gen_traffic hb
      obtain ⟨e', he', hreq⟩ := hhead e he
      exact ⟨hv, e', w, sgn, le, he', hreq ▸ hrest⟩ }

/-- A channel that carries nothing has nothing to justify. -/
theorem State.Inv.withMemPort_idle (h : s.Inv) {p : MemPort} (hidle : ¬p.busy) : (s.withMemPort p).Inv :=
  have ⟨hreq, hwait, hrsp⟩ := MemPort.not_busy_iff.1 hidle
  { h with
    reset_idle := fun hr => have ⟨hq, hv, _, hg⟩ := h.reset_idle hr; ⟨hq, hv, hreq, hg⟩
    mem_phases := by simp [hreq, hwait]
    mem_traffic := fun hb => absurd hb hidle
    mem_lanes := by simp [hrsp] }

theorem State.Inv.withGen_idle (h : s.Inv) {p : GenPort} (hidle : ¬p.busy) : (s.withGen p).Inv :=
  have ⟨hreq, hwait, _⟩ := GenPort.not_busy_iff.1 hidle
  { h with
    reset_idle := fun hr => have ⟨hq, hv, hm, _⟩ := h.reset_idle hr; ⟨hq, hv, hm, hreq⟩
    gen_phases := by simp [hreq, hwait]
    gen_traffic := fun hb => absurd hb hidle }

/-- A response may go up once neither channel is in use. -/
theorem State.Inv.respond (h : s.Inv) (hq : s.q ≠ []) (hmem : ¬s.memPort.busy) (hgen : ¬s.gen.busy) (r : Response) :
    (s.respond r).Inv :=
  { h with
    response_head := fun _ => hq
    response_coherent := r.data_coherent
    reset_idle := fun hr => absurd (h.reset_idle hr).1 hq
    mem_traffic := fun hb => absurd hb hmem
    gen_traffic := fun hb => absurd hb hgen }

theorem State.Inv.settle (h : s.Inv) (hq : s.q ≠ []) (hmem : ¬s.memPort.busy) (hgen : ¬s.gen.busy) (w : Nat) (sgn : Bool)
    (r : Response) : (s.settle e w sgn r).Inv := by
  rcases settle_cases s e w sgn r with ⟨-, hs⟩ | ⟨-, hs⟩ <;> rw [hs]
  · exact h.respond hq hmem hgen r
  · exact (h.respond hq hmem hgen _).withFreeCount _

end Sys2Proof.Machine

/-! What an instruction does to the invariant: the head request alone may use a channel, and only the one of its own path
(20_memory.md R58, R61; 42_generic.md R151). -/

namespace Sys2Proof.Machine

variable {s t : State} {e : Entry} {i : Instr}

/-- The head is an unanswered, legal request past its pre-checks: the only one the engine may use a channel for. -/
structure State.Serves (s : State) (e : Entry) (i : Instr) : Prop where
  head : s.q.head? = some e
  unanswered : s.rsp.valid = false
  legal : decode e.req.ctrl = .ok i
  checked : precheck e.req i.width = none

theorem State.Serves.q_ne_nil (hs : s.Serves e i) : s.q ≠ [] := by
  have hhead := hs.head
  rintro hq
  simp [hq] at hhead

/-- Who has traffic on the memory channel is the head, on the fast path. -/
theorem State.Inv.serves_of_mem_busy (h : s.Inv) (hb : s.memPort.busy) : ∃ e i, s.Serves e i ∧ i.isFast = true := by
  obtain ⟨hv, e, i, hhead, hlegal, hfast, hpre, -⟩ := h.mem_traffic hb
  exact ⟨e, i, ⟨hhead, hv, hlegal, hpre⟩, hfast⟩

/-- Who has traffic on the generic channel is the head, on the generic path. -/
theorem State.Inv.serves_of_gen_busy (h : s.Inv) (hb : s.gen.busy) : ∃ e i, s.Serves e i ∧ i.isFast = false := by
  obtain ⟨hv, e, w, sgn, le, hhead, hlegal, hpre, -⟩ := h.gen_traffic hb
  exact ⟨e, _, ⟨hhead, hv, hlegal, hpre⟩, rfl⟩

theorem State.Serves.unique {e' : Entry} {i' : Instr} (hs : s.Serves e i) (hs' : s.Serves e' i') : i = i' := by
  obtain rfl : e = e' := Option.some_inj.1 (hs.head.symm.trans hs'.head)
  exact Except.ok.inj (hs.legal.symm.trans hs'.legal)

theorem State.Inv.gen_idle_of_fast (h : s.Inv) (hs : s.Serves e i) (hfast : i.isFast = true) : ¬s.gen.busy := by
  intro hb
  obtain ⟨e', i', hs', hgeneric⟩ := h.serves_of_gen_busy hb
  simp [hs.unique hs', hgeneric] at hfast

theorem State.Inv.mem_idle_of_generic (h : s.Inv) (hs : s.Serves e i) (hgeneric : i.isFast = false) : ¬s.memPort.busy := by
  intro hb
  obtain ⟨e', i', hs', hfast⟩ := h.serves_of_mem_busy hb
  simp [hs.unique hs', hfast] at hgeneric

/-- With no request that may use a channel, both are idle. -/
theorem State.Inv.idle_of_not_serves (h : s.Inv) (hnone : ∀ e i, ¬s.Serves e i) : ¬s.memPort.busy ∧ ¬s.gen.busy := by
  refine ⟨fun hb => ?_, fun hb => ?_⟩
  · obtain ⟨e, i, hs, -⟩ := h.serves_of_mem_busy hb
    exact hnone e i hs
  · obtain ⟨e, i, hs, -⟩ := h.serves_of_gen_busy hb
    exact hnone e i hs

/-- The engine drives the head's read, or the memory has taken it. -/
theorem State.Inv.withMemPort_reading (h : s.Inv) (hs : s.Serves e i) (hfast : i.isFast = true) {p : MemPort}
    (haddr : p.addr = effAddr s.cfg.addrW e.req) (hnbytes : p.nbytes = BitVec.ofNat 4 (i.width / 8))
    (hphase : p.reqValid = true → p.waiting = false) (hrsp : p.rspValid = false) : (s.withMemPort p).Inv :=
  { h with
    reset_idle := fun hr => absurd (h.reset_idle hr).1 hs.q_ne_nil
    mem_phases := ⟨fun hreq => ⟨hphase hreq, hrsp⟩, fun _ => hrsp⟩
    mem_traffic := fun _ => ⟨hs.unanswered, e, i, hs.head, hs.legal, hfast, hs.checked, haddr, by
      rcases Instr.width_of_isFast hfast with hw | hw | hw | hw <;> simp [hnbytes, hw]⟩
    mem_lanes := by simp [hrsp] }

/-- The engine drives the head's generic request, or the decoder has taken it. -/
theorem State.Inv.withGen_calling (h : s.Inv) {w : BitVec 7} {sgn le : Bool} (hs : s.Serves e (.extg w sgn le)) {p : GenPort}
    (hcall : p.call = genericRequest s.cfg.addrW e.req w sgn le)
    (hphase : p.reqValid = true → p.waiting = false) (hrsp : p.rspValid = false) : (s.withGen p).Inv :=
  { h with
    reset_idle := fun hr => absurd (h.reset_idle hr).1 hs.q_ne_nil
    gen_phases := ⟨fun hreq => ⟨hphase hreq, hrsp⟩, fun _ => hrsp⟩
    gen_traffic := fun _ => ⟨hs.unanswered, e, w, sgn, le, hs.head, hs.legal, hs.checked, hcall⟩ }

theorem State.Inv.loadBytes_wait (h : s.Inv) (hs : s.Serves e i) (hfast : i.isFast = true)
    (hload : loadBytes s (effAddr s.cfg.addrW e.req) (i.width / 8) = .wait t) : t.Inv := by
  obtain ⟨hrsp, ⟨-, rfl⟩ | ⟨hwait, -, rfl⟩ | ⟨-, -, -, rfl⟩⟩ := Machine.loadBytes_wait hload
  · exact h
  · exact h.withMemPort_reading hs hfast rfl rfl (fun _ => hwait) hrsp
  · exact h.withMemPort_reading hs hfast rfl rfl nofun hrsp

/-- A read that ends leaves the channel idle. -/
theorem State.Inv.loadBytes_done (h : s.Inv) {a k : Nat} {bs : Option (List Byte)} (hload : loadBytes s a k = .done bs t) :
    ∃ p : MemPort, ¬p.busy ∧ t = s.withMemPort p := by
  obtain ⟨hreqPhase, hwaitPhase⟩ := h.mem_phases
  obtain ⟨hrsp, -, rfl⟩ | ⟨⟨-, -, hwait, hrsp⟩, -, rfl⟩ := Machine.loadBytes_done hload
  · refine ⟨_, MemPort.not_busy_iff.2 ⟨?_, ?_, rfl⟩, rfl⟩ <;> simp_all
  · exact ⟨s.memPort.finish a k bs, MemPort.not_busy_iff.2 ⟨rfl, hwait, hrsp⟩, rfl⟩

theorem State.Inv.genericCall_wait (h : s.Inv) {w : BitVec 7} {sgn le : Bool} (hs : s.Serves e (.extg w sgn le))
    (hcall : genericCall s (genericRequest s.cfg.addrW e.req w sgn le) = .wait t) : t.Inv := by
  obtain ⟨hrsp, ⟨-, rfl⟩ | ⟨hwait, -, rfl⟩ | ⟨-, -, -, rfl⟩⟩ := Machine.genericCall_wait hcall
  · exact h
  · exact h.withGen_calling hs rfl (fun _ => hwait) hrsp
  · exact h.withGen_calling hs rfl nofun hrsp

/-- A generic request that ends leaves the channel idle. -/
theorem State.Inv.genericCall_done (h : s.Inv) {g : GenReq} {v : Option Value} (hcall : genericCall s g = .done v t) :
    ∃ p : GenPort, ¬p.busy ∧ t = s.withGen p := by
  obtain ⟨hreqPhase, hwaitPhase⟩ := h.gen_phases
  obtain ⟨hrsp, -, rfl⟩ | ⟨⟨-, -, hwait, hrsp⟩, -, rfl⟩ := Machine.genericCall_done hcall
  · refine ⟨_, GenPort.not_busy_iff.2 ⟨?_, ?_, rfl⟩, rfl⟩ <;> simp_all
  · exact ⟨s.gen.finish g v, GenPort.not_busy_iff.2 ⟨rfl, hwait, hrsp⟩, rfl⟩

/-- A response settled on a channel that has just become idle. -/
theorem State.Inv.settle_after_read (h : s.Inv) (hs : s.Serves e i) (hfast : i.isFast = true) {p : MemPort} (hidle : ¬p.busy)
    (w : Nat) (sgn : Bool) (r : Response) : ((s.withMemPort p).settle e w sgn r).Inv :=
  (h.withMemPort_idle hidle).settle hs.q_ne_nil hidle (h.gen_idle_of_fast hs hfast) w sgn r

theorem State.Inv.settle_after_call (h : s.Inv) (hs : s.Serves e i) (hgeneric : i.isFast = false) {p : GenPort}
    (hidle : ¬p.busy) (w : Nat) (sgn : Bool) (r : Response) : ((s.withGen p).settle e w sgn r).Inv :=
  (h.withGen_idle hidle).settle hs.q_ne_nil (h.mem_idle_of_generic hs hgeneric) hidle w sgn r

theorem State.Inv.fastPath (h : s.Inv) (hs : s.Serves e i) (hfast : i.isFast = true) {sgn : Bool} {value : List Byte → Response}
    (hexec : fastPath s i.width sgn value = .next t) : t.Inv := by
  obtain ⟨-, rfl⟩ | ⟨e', rest, hq, hcases⟩ := fastPath_cases hexec
  · exact h
  obtain rfl : e' = e := by simpa [hq] using hs.head
  obtain ⟨c, hfail, -⟩ | ⟨-, hwait | ⟨s', hdone, rfl⟩ | ⟨bs, s', hdone, rfl⟩⟩ := hcases
  · simp [hs.checked] at hfail
  · exact h.loadBytes_wait hs hfast hwait
  · obtain ⟨p, hidle, rfl⟩ := h.loadBytes_done hdone
    exact h.settle_after_read hs hfast hidle ..
  · obtain ⟨p, hidle, rfl⟩ := h.loadBytes_done hdone
    exact h.settle_after_read hs hfast hidle ..

theorem State.Inv.execExtg (h : s.Inv) {w : BitVec 7} {sgn le : Bool} (hs : s.Serves e (.extg w sgn le))
    (hexec : execExtg w sgn le s = .next t) : t.Inv := by
  obtain ⟨-, rfl⟩ | ⟨e', rest, hq, hcases⟩ := execExtg_cases hexec
  · exact h
  obtain rfl : e' = e := by simpa [hq] using hs.head
  obtain ⟨c, hfail, -⟩ | ⟨-, hwait | ⟨s', hdone, rfl⟩ | ⟨v, s', hdone, rfl⟩⟩ := hcases
  · exact absurd (hs.checked.symm.trans hfail) nofun
  · exact h.genericCall_wait hs hwait
  · obtain ⟨p, hidle, rfl⟩ := h.genericCall_done hdone
    exact h.settle_after_call hs rfl hidle ..
  · obtain ⟨p, hidle, rfl⟩ := h.genericCall_done hdone
    exact h.settle_after_call hs rfl hidle ..

/-- A request that fails before anything is read finds both channels idle (R61). -/
theorem State.Inv.respond_fail (h : s.Inv) (hq : s.q.head? = some e)
    (hbad : ∀ i, decode e.req.ctrl = .ok i → precheck e.req i.width ≠ none) (c : Cause) : (s.respond (.fail c)).Inv := by
  have hne : s.q ≠ [] := by
    rintro hnil
    simp [hnil] at hq
  have hnone : ∀ e' i, ¬s.Serves e' i := fun e' i hs => by
    obtain rfl : e = e' := Option.some_inj.1 (hq.symm.trans hs.head)
    exact hbad i hs.legal hs.checked
  exact h.respond hne (h.idle_of_not_serves hnone).1 (h.idle_of_not_serves hnone).2 _

theorem State.Inv.exec (h : s.Inv) (hq : s.q.head? = some e) (hv : s.rsp.valid = false) (hlegal : decode e.req.ctrl = .ok i)
    (hexec : exec i s = .next t) : t.Inv := by
  cases hpre : precheck e.req i.width with
  | some c =>
    obtain rfl := Host.Outcome.next.inj ((exec_precheck_some hq hpre).symm.trans hexec)
    refine h.respond_fail hq (fun i' hlegal' => ?_) c
    rw [← Except.ok.inj (hlegal.symm.trans hlegal'), hpre]
    nofun
  | none =>
    have hs : s.Serves e i := ⟨hq, hv, hlegal, hpre⟩
    cases hfast : i.isFast with
    | true => exact h.fastPath hs hfast ((exec_fast hfast s).symm.trans hexec)
    | false =>
      obtain ⟨w, sgn, le, rfl⟩ := Instr.eq_extg_of_not_isFast hfast
      exact h.execExtg hs hexec

theorem State.Inv.runHead (h : s.Inv) (hq : s.q.head? = some e) (hv : s.rsp.valid = false)
    (hrun : runHead s e = .next t) : t.Inv := by
  unfold Machine.runHead at hrun
  split at hrun
  case h_1 x hillegal =>
    cases hrun
    exact h.respond_fail hq (by simp [hillegal]) _
  case h_2 i hlegal => exact h.exec hq hv hlegal hrun

end Sys2Proof.Machine

/-! The engine's turn and every input keep the invariant, and reset establishes it (10_state.md R40, R41; 70_reset_and_hazards.md
R190). -/

namespace Sys2Proof.Machine

variable {s t : State}

theorem State.Inv.driveReady (h : s.Inv) : s.driveReady.Inv := h.withReq h.port_fits State.hasRoom_iff.1

/-- The response on the port belongs to a request that is through with the channels. -/
theorem State.Inv.idle_of_response (h : s.Inv) (hv : s.rsp.valid = true) : ¬s.memPort.busy ∧ ¬s.gen.busy :=
  h.idle_of_not_serves fun _ _ hs => by simp [hs.unanswered] at hv

theorem State.Inv.deliver (h : s.Inv) (hv : s.rsp.valid = true) (hdeliver : s.deliver = .next t) : t.Inv := by
  obtain ⟨-, hs⟩ | ⟨-, hs⟩ := deliver_cases s <;> rw [hs] at hdeliver <;> cases hdeliver
  obtain ⟨hmem, hgen⟩ := h.idle_of_response hv
  have hlen : s.q.tail.length ≤ s.q.length := by simp
  exact
    { h with
      queue_fits := fun e he => h.queue_fits e (List.mem_of_mem_tail he)
      queue_bound := hlen.trans h.queue_bound
      ready_room := State.hasRoom_iff.1
      response_head := nofun
      received_coherent := fun d hd => by
        rcases List.mem_append.1 hd with hd | hd
        · exact h.received_coherent d hd
        · exact List.mem_singleton.1 hd ▸ h.response_coherent
      reset_idle := fun hr => by simp [(h.reset_idle hr).2.1] at hv
      mem_traffic := fun hb => absurd hb hmem
      gen_traffic := fun hb => absurd hb hgen }

theorem State.Inv.accept (h : s.Inv) (hreset : s.inReset = false) (hroom : s.hasRoom = true) : s.accept.Inv := by
  have hroom := State.hasRoom_iff.1 hroom
  rw [accept_eq]
  apply State.Inv.withQueue (h.withReq (p := ⟨false, _, s.req.fields⟩) h.port_fits fun _ => hroom)
  case hfits =>
    intro e he
    rcases List.mem_append.1 he with he | he
    · exact h.queue_fits e he
    · exact List.mem_singleton.1 he ▸ h.port_fits
  case hbound => simpa using hroom
  case hready => simp
  case hreset => simp [hreset]
  case hhead => exact fun e he => ⟨e, by simp_all, rfl⟩

theorem State.Inv.engineTurn (h : s.Inv) (hturn : engineTurn s = .next t) : t.Inv := by
  obtain ⟨-, ht⟩ | ⟨hreset, ⟨hv, -, ht⟩ | ⟨-, ⟨hreq, ht⟩ | ⟨-, ⟨-, ht⟩ | ⟨hv, ⟨-, ht⟩ | ⟨e, rest, hq, ht⟩⟩⟩⟩⟩ :=
    engineTurn_cases s <;> rw [ht] at hturn
  · cases hturn; exact h
  · exact h.deliver hv hturn
  · cases hturn; exact h.accept hreset (Bool.and_eq_true_iff.1 hreq).2
  · cases hturn; exact h.driveReady
  · cases hturn; exact h.driveReady
  · exact h.runHead (by simp [hq]) hv hturn

theorem State.Inv.storeByte (h : s.Inv) (a : Nat) (b : Byte) : (s.storeByte a b).Inv := by
  have haddr : a % 2 ^ s.cfg.addrW < 2 ^ s.cfg.addrW := Nat.mod_lt _ (Nat.two_pow_pos _)
  have hmem : (s.withMem (memStore s.mem (a % 2 ^ s.cfg.addrW) b)).Inv :=
    h.withMem (memStore_wf _ _ h.mem_wf) fun c hc => by
      rcases mem_memStore hc with rfl | hc
      · exact haddr
      · exact h.mem_fits c hc
  have hreqs := markWindow_map_req s.cfg.addrW (a % 2 ^ s.cfg.addrW) s.q
  refine hmem.withQueue (fun e he => ?_) (by simpa using h.queue_bound) (by simpa using h.ready_room)
    (fun hr => by simp [(h.reset_idle hr).1, markWindow]) (fun e he => ?_)
  · obtain ⟨e', he', hreq⟩ := List.mem_map.1 (hreqs ▸ List.mem_map_of_mem he)
    exact hreq ▸ h.queue_fits e' he'
  · have hhead := congrArg List.head? hreqs
    rw [List.head?_map, List.head?_map, show s.q.head? = some e from he] at hhead
    exact Option.map_eq_some_iff.1 hhead

theorem State.Inv.breakByte (h : s.Inv) (a : Nat) : (s.withMem (memErase s.mem a)).Inv :=
  h.withMem (memErase_wf _ h.mem_wf) fun c hc => h.mem_fits c (mem_memErase hc)

/-- The answer's lanes carry a byte for each one asked for, since the outstanding read is one of 1, 2, 4 or 8 bytes. -/
theorem State.Inv.memAnswer (h : s.Inv) (err : Bool) : (s.memAnswer err).Inv := by
  cases hwait : s.memPort.waiting with
  | false => exact (memAnswer_of_not_waiting hwait err).symm ▸ h
  | true =>
    rw [memAnswer_of_waiting hwait]
    have htraffic := h.mem_traffic (.inr (.inl hwait))
    have hreq : s.memPort.reqValid = false := by
      have hphase := h.mem_phases.1
      simp_all
    have hnbytes : 1 ≤ s.memPort.nbytes.toNat ∧ s.memPort.nbytes.toNat ≤ 8 := by
      obtain ⟨-, e, i, -, -, hfast, -, -, hn⟩ := htraffic
      rcases Instr.width_of_isFast hfast with hw | hw | hw | hw <;> omega
    exact
      { h with
        mem_phases := by simp [hreq]
        mem_traffic := fun _ => htraffic
        mem_lanes := fun _ _ => ⟨laneBytes_length _ hnbytes.2, hnbytes.1⟩ }

theorem State.Inv.genAnswer (h : s.Inv) (ok : Bool) (v : Value) : (s.genAnswer ok v).Inv := by
  cases hwait : s.gen.waiting with
  | false => exact (genAnswer_of_not_waiting hwait ok v).symm ▸ h
  | true =>
    rw [genAnswer_of_waiting hwait]
    have hreq : s.gen.reqValid = false := by
      have hphase := h.gen_phases.1
      simp_all
    exact { h with gen_phases := by simp [hreq], gen_traffic := fun _ => h.gen_traffic (.inr (.inl hwait)) }

theorem State.Inv.assertReset (h : s.Inv) (together : Bool) : (s.assertReset together).Inv :=
  { h with
    queue_fits := nofun
    queue_bound := Nat.zero_le _
    ready_room := nofun
    response_head := nofun
    response_coherent := RspData.reset_coherent
    reset_idle := fun _ => ⟨rfl, rfl, rfl, rfl⟩
    mem_phases := ⟨nofun, nofun⟩
    mem_traffic := fun hb => absurd hb (MemPort.not_busy_iff.2 ⟨rfl, rfl, rfl⟩)
    mem_lanes := nofun
    gen_phases := ⟨nofun, nofun⟩
    gen_traffic := fun hb => absurd hb (GenPort.not_busy_iff.2 ⟨rfl, rfl, rfl⟩) }

/-- The inputs that have no lemma above drive a signal that the invariant does not speak of. -/
theorem State.Inv.applyInput (h : s.Inv) {i : Input} (hinput : applyInput i s = .next t) : t.Inv := by
  cases i with
  | engineTurn => exact h.engineTurn hinput
  | present r =>
    cases hinput
    exact h.withReq ⟨Nat.mod_lt _ (Nat.two_pow_pos _), Nat.mod_lt _ (Nat.two_pow_pos _)⟩ h.ready_room
  | storeByte a b => cases hinput; exact h.storeByte a b
  | breakByte a => cases hinput; exact h.breakByte _
  | memAnswer err => cases hinput; exact h.memAnswer err
  | genAnswer => cases hinput; exact h.genAnswer _ _
  | genAnswerWith ok v => cases hinput; exact h.genAnswer ok v
  | assertReset together => cases hinput; exact h.assertReset together
  | releaseReset => cases hinput; exact { h with reset_idle := nofun }
  | _ => cases hinput; exact { h with }

/-- Settles O50: the engine's turn and every input keep the invariant. -/
theorem stepKeepsTheInvariant : Obligations.StepKeepsTheInvariant := by
  intro s t h hstep
  obtain ⟨-, hs⟩ | ⟨i, rest, -, hs⟩ := step_cases s <;> rw [hs] at hstep
  · exact h.engineTurn hstep
  · exact (h.withInputs rest).applyInput hstep

theorem resetWith_inv {p : Config.Params} (haddrW : 1 ≤ p.addrW) (hdepth : 1 ≤ p.pipeDepth) : (State.resetWith p).Inv where
  addrW_pos := haddrW
  depth_pos := hdepth
  mem_wf := reset_mem_wf p
  mem_fits := nofun
  port_fits := ⟨Nat.two_pow_pos _, Nat.two_pow_pos _⟩
  queue_fits := nofun
  queue_bound := Nat.zero_le _
  ready_room := nofun
  response_head := nofun
  response_coherent := RspData.reset_coherent
  received_coherent := nofun
  reset_idle := nofun
  mem_phases := ⟨nofun, nofun⟩
  mem_traffic := fun hb => absurd hb (MemPort.not_busy_iff.2 ⟨rfl, rfl, rfl⟩)
  mem_lanes := nofun
  gen_phases := ⟨nofun, nofun⟩
  gen_traffic := fun hb => absurd hb (GenPort.not_busy_iff.2 ⟨rfl, rfl, rfl⟩)

/-- Settles O51: at reset the queue and both channels are empty, and the machine's own parameters are at least 1. -/
theorem invariantHoldsAtReset : Obligations.InvariantHoldsAtReset :=
  ⟨fun _ => resetWith_inv, resetWith_inv (by decide) (Nat.le_add_left 1 _)⟩

end Sys2Proof.Machine

/-! The requester's side: a request is accepted, a response is delivered, and the length of the queue changes in no other way but by
a reset (10_state.md R29, R40; 70_reset_and_hazards.md R196, R197). -/

namespace Sys2Proof.Machine

variable {s t : State}

/-- Settles O42: the engine's turn is the acceptance, and `present` writes the request port alone. -/
theorem acceptanceLatchesThePort : Obligations.AcceptanceLatchesThePort := by
  refine ⟨fun s hinputs hreset hrsp hvalid hready hroom => ?_, fun s r rest hinputs => ?_⟩
  · have hreq : (s.req.valid && s.req.ready && s.hasRoom) = true := by
      simp [hvalid, hready, State.hasRoom_iff.2 hroom]
    refine ⟨_, (step_of_no_input hinputs).trans (engineTurn_of_request hreset hrsp hreq), ?_⟩
    simp [accept_eq]
  · exact ⟨_, step_of_input hinputs, rfl, rfl, rfl, rfl, rfl, rfl⟩

/-- Settles O44: the engine's turn is the delivery, whose one stop is the reserved cause. -/
theorem deliveryRemovesTheHead : Obligations.DeliveryRemovesTheHead := by
  intro s hinputs hreset hvalid hready
  have hstep : step s = s.deliver := (step_of_no_input hinputs).trans (engineTurn_of_response hreset hvalid hready)
  obtain ⟨hseven, hdeliver⟩ | ⟨hcause, hdeliver⟩ := deliver_cases s
  · exact ⟨fun hne => absurd hseven hne, fun _ => hstep.trans hdeliver⟩
  · exact ⟨fun _ => ⟨_, hstep.trans hdeliver, rfl, rfl, rfl, rfl, rfl, rfl⟩, fun hseven => absurd hseven hcause⟩

/-- What a step can do to the length of the queue, and what `req_ready` then is. -/
inductive QueueMove (s t : State) : Prop where
  | same (hlen : t.q.length = s.q.length)
  | delivered (hq : t.q = s.q.tail) (hready : t.req.ready = t.hasRoom)
  | accepted (hroom : s.hasRoom = true) (hready : t.req.ready = t.hasRoom)
  | dropped (hq : t.q = []) (hready : t.req.ready = false)

theorem engineTurn_queueMove (h : engineTurn s = .next t) : QueueMove s t := by
  obtain ⟨-, ht⟩ | ⟨-, ⟨-, -, ht⟩ | ⟨-, ⟨hreq, ht⟩ | ⟨-, ⟨-, ht⟩ | ⟨-, ⟨-, ht⟩ | ⟨e, rest, -, ht⟩⟩⟩⟩⟩ :=
    engineTurn_cases s <;> rw [ht] at h
  · cases h; exact .same rfl
  · obtain ⟨-, hs⟩ | ⟨-, hs⟩ := deliver_cases s <;> rw [hs] at h <;> cases h
    exact .delivered rfl rfl
  · cases h; exact .accepted (Bool.and_eq_true_iff.1 hreq).2 rfl
  · cases h; exact .same rfl
  · cases h; exact .same rfl
  · exact .same (congrArg List.length (runHead_keeps h).q)

theorem applyInput_queueMove {i : Input} (h : applyInput i s = .next t) : QueueMove s t := by
  cases i with
  | engineTurn => exact engineTurn_queueMove h
  | storeByte a b => cases h; exact .same (markWindow_length ..)
  | memAnswer err => cases h; exact .same (congrArg List.length (memAnswer_q s err))
  | genAnswer => cases h; exact .same (congrArg List.length (genAnswer_q s _ _))
  | genAnswerWith ok v => cases h; exact .same (congrArg List.length (genAnswer_q s ok v))
  | assertReset together => cases h; exact .dropped rfl rfl
  | _ => cases h; exact .same rfl

theorem step_queueMove (h : step s = .next t) : QueueMove s t := by
  obtain ⟨-, hs⟩ | ⟨i, rest, -, hs⟩ := step_cases s <;> rw [hs] at h
  · exact engineTurn_queueMove h
  · cases applyInput_queueMove h with
    | same hlen => exact .same hlen
    | delivered hq hready => exact .delivered hq hready
    | accepted hroom hready => exact .accepted hroom hready
    | dropped hq hready => exact .dropped hq hready

/-- Settles O43: only an acceptance grows the queue, and it needs room; a transfer leaves `req_ready` telling whether there is
room. -/
theorem fullQueueAcceptsNothing : Obligations.FullQueueAcceptsNothing := by
  intro s t hstep
  rw [← parametersNeverChange s t hstep]
  cases step_queueMove hstep with
  | same hlen => exact ⟨fun _ => hlen.le, fun hne => absurd hlen hne⟩
  | delivered hq hready => exact ⟨fun _ => by simp [hq], fun _ hup => State.hasRoom_iff.1 (hready ▸ hup)⟩
  | accepted hroom hready =>
    have hcfg := parametersNeverChange s t hstep
    exact ⟨fun hfull => absurd (State.hasRoom_iff.1 hroom) (hcfg ▸ hfull).not_gt, fun _ hup => State.hasRoom_iff.1 (hready ▸ hup)⟩
  | dropped hq hready => exact ⟨fun _ => by simp [hq], fun _ hup => by simp [hready] at hup⟩

/-- Settles O54: `resetWith` writes these values out, whatever the parameters. -/
theorem resetStateAsTheSpecStates : Obligations.ResetStateAsTheSpecStates :=
  fun _ => ⟨rfl, rfl, rfl, rfl, rfl⟩

end Sys2Proof.Machine

/-! The late answers of the buffer memory and of the generic decoder (10_state.md R36, R37; 20_memory.md R59; 42_generic.md R156). -/

namespace Sys2Proof.Machine

variable {s : State}

/-- The two answer registers hold the unit's answer; on absence the value register is not looked at (R152). -/
theorem answer_registers (g : GenReq) (v : Option Value) : (if v.isSome then some (rspValueOf g v) else none) = v := by
  cases v <;> simp [rspValueOf]

/-- Settles O57: lane `n` holds byte `n` of what the memory reads. -/
theorem memoryAnswersTheOutstandingRead : Obligations.MemoryAnswersTheOutstandingRead := by
  intro s err rest hinputs hwait
  have hstep : step s = .next ((s.withInputs rest).memAnswer err) := step_of_input hinputs
  rw [memAnswer_of_waiting (s := s.withInputs rest) hwait] at hstep
  refine ⟨_, hstep, rfl, rfl, rfl, rfl, rfl, ?_, ?_, ?_⟩
  · rintro rfl
    rfl
  · rintro rfl hread
    exact congrArg Option.isNone hread
  · rintro bs rfl hread
    have hlate : (s.withInputs rest).lateRead false = some bs := hread
    refine ⟨congrArg Option.isNone hlate, fun n hlane hn => ?_⟩
    simp only [State.withMemPort_memPort, hlate]
    exact laneData_getElem? hlane (memRead_length hread ▸ hn)

/-- Settles O58: the registers hold the unit's answer, or whatever a foreign decoder gave. -/
theorem decoderAnswersTheOutstandingRequest : Obligations.DecoderAnswersTheOutstandingRequest := by
  refine ⟨fun s rest hinputs hwait => ?_, fun s ok v rest hinputs hwait => ?_⟩
  · refine ⟨_, (step_of_input hinputs).trans (congrArg Host.Outcome.next
      (genAnswer_of_waiting (s := s.withInputs rest) hwait _ _)), rfl, rfl, rfl, rfl, rfl, ?_⟩
    exact answer_registers s.gen.call (genericAnswer s.gen.unit s.mem s.cfg.addrW s.gen.call)
  · exact ⟨_, (step_of_input hinputs).trans (congrArg Host.Outcome.next
      (genAnswer_of_waiting (s := s.withInputs rest) hwait ok v)), rfl, rfl, rfl, rfl, rfl, rfl, rfl⟩

end Sys2Proof.Machine

/-! With every agent answering at once, two steps take the head's response to the requester (10_state.md R29, R40; 70_reset_and_hazards.md
R200). -/

namespace Sys2Proof.Machine

variable {s t : State} {e : Entry} {i : Instr}

@[simp] theorem MemPort.finish_answersNow (p : MemPort) (a k : Nat) (bs : Option (List Byte)) :
    (p.finish a k bs).answersNow ↔ p.answersNow := Iff.rfl

@[simp] theorem GenPort.finish_answersNow (p : GenPort) (g : GenReq) (v : Option Value) :
    (p.finish g v).answersNow ↔ p.answersNow := Iff.rfl

@[simp] theorem GenPort.finish_unit (p : GenPort) (g : GenReq) (v : Option Value) : (p.finish g v).unit = p.unit := rfl

/-- Over a prompt memory the fast path leaves the memory prompt and the decoder alone. -/
theorem fastPath_keeps_answersNow {w : Nat} {sgn : Bool} {value : List Byte → Response}
    (h : fastPath s w sgn value = .next t) (hnow : s.memPort.answersNow) : t.memPort.answersNow ∧ t.gen = s.gen := by
  obtain ⟨-, rfl⟩ | ⟨e, rest, -, ⟨c, -, rfl⟩ | ⟨-, hload⟩⟩ := fastPath_cases h
  · exact ⟨hnow, rfl⟩
  · exact ⟨hnow, rfl⟩
  · simp only [loadBytes_now _ _ hnow, reduceCtorEq, Reply.done.injEq, false_or] at hload
    obtain ⟨s', ⟨-, rfl⟩, rfl⟩ | ⟨bs, s', ⟨-, rfl⟩, rfl⟩ := hload <;> exact ⟨by simpa using hnow, by simp⟩

/-- With a prompt decoder the generic path leaves it prompt and attached, and the memory alone. -/
theorem execExtg_keeps_answersNow {w : BitVec 7} {sgn le : Bool} (h : execExtg w sgn le s = .next t)
    (hnow : s.gen.answersNow) : t.gen.answersNow ∧ t.gen.unit = s.gen.unit ∧ t.memPort = s.memPort := by
  obtain ⟨-, rfl⟩ | ⟨e, rest, -, ⟨c, -, rfl⟩ | ⟨-, hcall⟩⟩ := execExtg_cases h
  · exact ⟨hnow, rfl, rfl⟩
  · exact ⟨hnow, rfl, rfl⟩
  · simp only [genericCall_now _ hnow, reduceCtorEq, Reply.done.injEq, false_or] at hcall
    obtain ⟨s', ⟨-, rfl⟩, rfl⟩ | ⟨v, s', ⟨-, rfl⟩, rfl⟩ := hcall <;> exact ⟨by simpa using hnow, by simp, by simp⟩

theorem runHead_keeps_answersNow (h : runHead s e = .next t) (hmem : s.memPort.answersNow) (hgen : s.gen.answersNow) :
    t.memPort.answersNow ∧ t.gen.answersNow ∧ t.gen.unit = s.gen.unit := by
  unfold runHead at h
  split at h
  case h_1 => cases h; exact ⟨hmem, hgen, rfl⟩
  case h_2 i _ =>
    cases hfast : i.isFast with
    | true =>
      obtain ⟨hmem', hsame⟩ := fastPath_keeps_answersNow ((exec_fast hfast s).symm.trans h) hmem
      exact ⟨hmem', hsame ▸ hgen, congrArg GenPort.unit hsame⟩
    | false =>
      obtain ⟨w, sgn, le, rfl⟩ := Instr.eq_extg_of_not_isFast hfast
      obtain ⟨hgen', hunit, hsame⟩ := execExtg_keeps_answersNow h hgen
      exact ⟨hsame ▸ hmem, hgen', hunit⟩

/-- All that is left to do is the queue: nothing comes from outside but answers, at once. -/
structure State.Draining (s : State) : Prop where
  no_input : s.inputs = []
  no_reset : s.inReset = false
  no_request : s.req.valid = false
  rsp_ready : s.rsp.ready = true
  mem_now : s.memPort.answersNow
  gen_now : s.gen.answersNow

/-- What `Execute` reads beside the request is the same in both states. -/
structure SameSurroundings (s t : State) : Prop where
  cfg : t.cfg = s.cfg
  mem : t.mem = s.mem
  unit : t.gen.unit = s.gen.unit

/-- The response registers that `Execute` gives a queue entry in this state. -/
def State.executeData (s : State) (e : Entry) : RspData := (execute s.cfg.addrW s.gen.unit s.mem e.req).data

theorem SameSurroundings.executeData (h : SameSurroundings s t) : t.executeData = s.executeData := by
  funext e
  simp [State.executeData, h.cfg, h.mem, h.unit]

theorem SameSurroundings.trans {u : State} (h : SameSurroundings s t) (h' : SameSurroundings t u) : SameSurroundings s u where
  cfg := h'.cfg.trans h.cfg
  mem := h'.mem.trans h.mem
  unit := h'.unit.trans h.unit

/-- The first step on the head: its response is on the port, and all else stays. -/
theorem State.Draining.execute_step (hs : s.Draining) (hidle : s.rsp.valid = false) (hhead : s.headIs e) :
    ∃ t, step s = .next t ∧ t.Draining ∧ SameSurroundings s t ∧ t.q = s.q ∧ t.received = s.received ∧
      t.rsp.valid = true ∧ t.rsp.data = s.executeData e := by
  have hruns : s.runsHead := ⟨hs.no_input, hs.no_reset, hidle, by simp [hs.no_request]⟩
  obtain ⟨t, hstep, hrsp⟩ := step_computes_execute hruns hhead hs.mem_now hs.gen_now
  have hrun := (step_of_runsHead hruns hhead.1).symm.trans hstep
  have hkeeps := runHead_keeps hrun
  obtain ⟨hmem, hgen, hunit⟩ := runHead_keeps_answersNow hrun hs.mem_now hs.gen_now
  refine ⟨t, hstep, ?_, ⟨hkeeps.cfg, hkeeps.mem, hunit⟩, hkeeps.q, hkeeps.received, by rw [hrsp], by rw [hrsp]; rfl⟩
  exact
    { no_input := hkeeps.inputs.trans hs.no_input
      no_reset := hkeeps.inReset.trans hs.no_reset
      no_request := hkeeps.req ▸ hs.no_request
      rsp_ready := hkeeps.rspReady.trans hs.rsp_ready
      mem_now := hmem
      gen_now := hgen }

/-- The second step: the response is the requester's, and its request is out of the queue. -/
theorem State.Draining.deliver_step (hs : s.Draining) (hvalid : s.rsp.valid = true) (hcause : s.rsp.data.cause ≠ 7) :
    ∃ t, step s = .next t ∧ t.Draining ∧ SameSurroundings s t ∧ t.q = s.q.tail ∧ t.received = s.received ++ [s.rsp.data] ∧
      t.rsp.valid = false := by
  have hstep : step s = s.deliver :=
    (step_of_no_input hs.no_input).trans (engineTurn_of_response hs.no_reset hvalid hs.rsp_ready)
  obtain ⟨hseven, -⟩ | ⟨-, hdeliver⟩ := deliver_cases s
  · exact absurd hseven hcause
  · exact ⟨_, hstep.trans hdeliver, ⟨hs.no_input, hs.no_reset, hs.no_request, hs.rsp_ready, hs.mem_now, hs.gen_now⟩,
      ⟨rfl, rfl, rfl⟩, rfl, rfl, rfl⟩

theorem run_of_step (h : step s = .next t) (k : Nat) : Sys2Proof.core.run (k + 1) s = Sys2Proof.core.run k t := by
  have hcore : Sys2Proof.core.step s = .next t := h
  simp only [Host.Core.run, hcore]

/-- Two steps answer the head, as `Execute` says. -/
theorem State.Draining.run_head {rest : List Entry} (hs : s.Draining) (hidle : s.rsp.valid = false) (hq : s.q = e :: rest)
    (hundisturbed : e.disturbed = false) :
    ∃ t, (∀ k, Sys2Proof.core.run (k + 2) s = Sys2Proof.core.run k t) ∧ t.Draining ∧ SameSurroundings s t ∧
      t.q = rest ∧ t.received = s.received ++ [s.executeData e] ∧ t.rsp.valid = false := by
  have hhead : s.headIs e := ⟨by simp [hq], hundisturbed⟩
  obtain ⟨s₁, hstep₁, hs₁, hsame₁, hq₁, hreceived₁, hvalid, hdata⟩ := hs.execute_step hidle hhead
  have hcause : s₁.rsp.data.cause ≠ 7 := hdata ▸ (Response.data_coherent _).2.1
  obtain ⟨t, hstep₂, ht, hsame₂, hq₂, hreceived₂, hdown⟩ := hs₁.deliver_step hvalid hcause
  refine ⟨t, fun k => (run_of_step hstep₁ (k + 1)).trans (run_of_step hstep₂ k), ht, hsame₁.trans hsame₂, ?_, ?_, hdown⟩
  · rw [hq₂, hq₁, hq, List.tail_cons]
  · rw [hreceived₂, hreceived₁, hdata]

theorem State.Draining.run_queue {q : List Entry} (hs : s.Draining) (hidle : s.rsp.valid = false) (hq : s.q = q)
    (hundisturbed : ∀ e ∈ q, e.disturbed = false) :
    ∃ t, Sys2Proof.core.run (2 * q.length) s = .next t ∧ t.q = [] ∧ t.rsp.valid = false ∧
      t.received = s.received ++ q.map s.executeData ∧ t.mem = s.mem := by
  induction q generalizing s with
  | nil => exact ⟨s, rfl, hq, hidle, by simp, rfl⟩
  | cons e rest ih =>
    obtain ⟨hhead, hrest⟩ := List.forall_mem_cons.1 hundisturbed
    obtain ⟨s₁, hrun₁, hs₁, hsame, hq₁, hreceived₁, hidle₁⟩ := hs.run_head hidle hq hhead
    obtain ⟨t, hrun, hempty, hdown, hreceived, hmem⟩ := ih hs₁ hidle₁ hq₁ hrest
    refine ⟨t, (hrun₁ _).trans hrun, hempty, hdown, ?_, hmem.trans hsame.mem⟩
    rw [hreceived, hreceived₁, hsame.executeData, List.map_cons, List.append_assoc, List.singleton_append]

/-- Settles O46, by induction on the queue: two steps answer its head. -/
theorem queueDrainsInOrder : Obligations.QueueDrainsInOrder := by
  intro s hinputs hreset hidle hready hreq hmem hgen hundisturbed
  exact State.Draining.run_queue ⟨hinputs, hreset, hreq, hready, hmem, hgen⟩ hidle rfl hundisturbed

end Sys2Proof.Machine

/-! What an instruction leaves of the two channels: its path drives the engine's side of one, and nothing of the other
(10_state.md R35 to R37, 20_memory.md R64, 60_exceptions.md R174). -/

namespace Sys2Proof.Machine

variable {s t : State}

/-- From `p` to `p'`, what the memory drives or owes is as it was. -/
structure MemPort.SameAgent (p p' : MemPort) : Prop where
  reqReady : p'.reqReady = p.reqReady
  prompt : p'.prompt = p.prompt
  stale : p'.stale = p.stale

/-- From `p` to `p'`, what the generic decoder drives or owes, and which unit it is, are as they were. -/
structure GenPort.SameAgent (p p' : GenPort) : Prop where
  reqReady : p'.reqReady = p.reqReady
  prompt : p'.prompt = p.prompt
  stale : p'.stale = p.stale
  unit : p'.unit = p.unit

/-- From `s` to `t`, at most the engine's side of the memory channel moved. -/
structure OnlyMemMoves (s t : State) : Prop where
  gen : t.gen = s.gen
  memPort : s.memPort.SameAgent t.memPort

/-- From `s` to `t`, at most the engine's side of the generic channel moved. -/
structure OnlyGenMoves (s t : State) : Prop where
  memPort : t.memPort = s.memPort
  gen : s.gen.SameAgent t.gen

theorem OnlyMemMoves.refl (s : State) : OnlyMemMoves s s := ⟨rfl, rfl, rfl, rfl⟩

theorem OnlyGenMoves.refl (s : State) : OnlyGenMoves s s := ⟨rfl, rfl, rfl, rfl, rfl⟩

/-- A response moves neither channel. -/
theorem OnlyMemMoves.settle (h : OnlyMemMoves s t) (e : Entry) (w : Nat) (sgn : Bool) (r : Response) :
    OnlyMemMoves s (t.settle e w sgn r) where
  gen := (State.settle_gen ..).trans h.gen
  memPort := (State.settle_memPort t e w sgn r).symm ▸ h.memPort

theorem OnlyGenMoves.settle (h : OnlyGenMoves s t) (e : Entry) (w : Nat) (sgn : Bool) (r : Response) :
    OnlyGenMoves s (t.settle e w sgn r) where
  memPort := (State.settle_memPort ..).trans h.memPort
  gen := (State.settle_gen t e w sgn r).symm ▸ h.gen

theorem loadBytes_wait_channels {a k : Nat} (h : loadBytes s a k = .wait t) : OnlyMemMoves s t := by
  obtain ⟨-, ⟨-, rfl⟩ | ⟨-, -, rfl⟩ | ⟨-, -, -, rfl⟩⟩ := loadBytes_wait h
  · exact .refl _
  · exact ⟨rfl, rfl, rfl, rfl⟩
  · exact ⟨rfl, rfl, rfl, rfl⟩

theorem loadBytes_done_channels {a k : Nat} {bs : Option (List Byte)} (h : loadBytes s a k = .done bs t) :
    OnlyMemMoves s t := by
  obtain ⟨-, -, rfl⟩ | ⟨-, -, rfl⟩ := loadBytes_done h <;> exact ⟨rfl, rfl, rfl, rfl⟩

theorem genericCall_wait_channels {g : GenReq} (h : genericCall s g = .wait t) : OnlyGenMoves s t := by
  obtain ⟨-, ⟨-, rfl⟩ | ⟨-, -, rfl⟩ | ⟨-, -, -, rfl⟩⟩ := genericCall_wait h
  · exact .refl _
  · exact ⟨rfl, rfl, rfl, rfl, rfl⟩
  · exact ⟨rfl, rfl, rfl, rfl, rfl⟩

theorem genericCall_done_channels {g : GenReq} {v : Option Value} (h : genericCall s g = .done v t) :
    OnlyGenMoves s t := by
  obtain ⟨-, -, rfl⟩ | ⟨-, -, rfl⟩ := genericCall_done h <;> exact ⟨rfl, rfl, rfl, rfl, rfl⟩

/-- Of the two channels the fast path moves the memory's alone, on the engine's side. -/
theorem fastPath_channels {w : Nat} {sgn : Bool} {value : List Byte → Response} (h : fastPath s w sgn value = .next t) :
    OnlyMemMoves s t := by
  obtain ⟨-, rfl⟩ | ⟨e, rest, -, ⟨c, -, rfl⟩ | ⟨-, hwait | ⟨s', hdone, rfl⟩ | ⟨bs, s', hdone, rfl⟩⟩⟩ := fastPath_cases h
  · exact .refl _
  · exact ⟨rfl, rfl, rfl, rfl⟩
  · exact loadBytes_wait_channels hwait
  · exact (loadBytes_done_channels hdone).settle ..
  · exact (loadBytes_done_channels hdone).settle ..

/-- Of the two channels the generic path moves the decoder's alone, on the engine's side. -/
theorem execExtg_channels {w : BitVec 7} {sgn le : Bool} (h : execExtg w sgn le s = .next t) : OnlyGenMoves s t := by
  obtain ⟨-, rfl⟩ | ⟨e, rest, -, ⟨c, -, rfl⟩ | ⟨-, hwait | ⟨s', hdone, rfl⟩ | ⟨v, s', hdone, rfl⟩⟩⟩ := execExtg_cases h
  · exact .refl _
  · exact ⟨rfl, rfl, rfl, rfl, rfl⟩
  · exact genericCall_wait_channels hwait
  · exact (genericCall_done_channels hdone).settle ..
  · exact (genericCall_done_channels hdone).settle ..

/-- Settles O18: what every instruction keeps, and which side of which channel the fast path moves. -/
theorem fastPathFrame : Obligations.FastPathFrame := by
  intro i s t hfast hexec
  obtain ⟨hgen, hreqReady, hprompt, hstale⟩ := fastPath_channels ((exec_fast hfast s).symm.trans hexec)
  have hkept := exec_keeps hexec
  exact ⟨hkept.cfg, hkept.req, hkept.rspReady, hkept.q, hgen, hkept.inReset, hkept.received, hkept.inputs,
    hreqReady, hprompt, hstale, fun a => by rw [hkept.mem]⟩

/-- Settles O19: what every instruction keeps, and which side of which channel the generic path moves. -/
theorem genericPathFrame : Obligations.GenericPathFrame := by
  intro w sgn le s t hexec
  obtain ⟨hmemPort, hreqReady, hprompt, hstale, hunit⟩ := execExtg_channels hexec
  have hkept := exec_keeps hexec
  exact ⟨hkept.cfg, hkept.req, hkept.rspReady, hkept.q, hmemPort, hkept.inReset, hkept.received, hkept.inputs,
    hreqReady, hprompt, hstale, hunit, fun a => by rw [hkept.mem]⟩

end Sys2Proof.Machine

/-! The two byte orders read the same number from the two ends of a list of bytes (20_memory.md R55). -/

namespace Sys2Proof.Machine

/-- A byte put after the others is the least significant one of the big-endian number. -/
theorem beNat_append_singleton (bs : List Byte) (b : Byte) : beNat (bs ++ [b]) = 256 * beNat bs + b.toNat := by
  induction bs with
  | nil => simp [beNat]
  | cons c bs ih =>
    simp only [List.cons_append, beNat, ih, List.length_append, List.length_singleton, pow_succ]
    ring

theorem leNat_eq_beNat_reverse (bs : List Byte) : leNat bs = beNat bs.reverse := by
  induction bs with
  | nil => rfl
  | cons b bs ih => rw [leNat, List.reverse_cons, beNat_append_singleton, ih, Nat.add_comm]

/-- Settles O23: the two patterns are of the same number. -/
theorem littleEndianIsBigEndianReversed : Obligations.LittleEndianIsBigEndianReversed :=
  fun w bs => congrArg (BitVec.ofNat w) (leNat_eq_beNat_reverse bs)

end Sys2Proof.Machine

/-! The buffer memory belongs to the other agents: what their writes do to its bytes and to the requests in flight, and that no
other step changes it (20_memory.md R59, R64 to R66). -/

namespace Sys2Proof.Machine

variable {s t : State}

theorem memByte_cons (k : Nat) (v : Byte) (m : Memory) (x : Nat) :
    memByte ((k, v) :: m) x = if x = k then some v else memByte m x := by
  rw [memByte.eq_def]
  simp only [eq_comm (a := k)]

theorem memByte_memStore (m : Memory) (a : Nat) (b : Byte) (x : Nat) :
    memByte (memStore m a b) x = if x = a then some b else memByte m x := by
  induction m with
  | nil => exact memByte_cons a b [] x
  | cons c m ih =>
    obtain ⟨k, v⟩ := c
    rw [memStore]
    by_cases hlt : a < k
    · rw [if_pos hlt, memByte_cons]
    by_cases heq : a = k
    · subst heq
      simp only [hlt, if_false, if_true, memByte_cons]
      split_ifs <;> rfl
    · simp only [hlt, heq, if_false, memByte_cons, ih]
      by_cases hx : x = a
      · simp [hx, heq]
      · simp [hx]

theorem memByte_memErase (m : Memory) (a x : Nat) :
    memByte (memErase m a) x = if x = a then none else memByte m x := by
  induction m with
  | nil => simp [memErase, memByte]
  | cons c m ih =>
    obtain ⟨k, v⟩ := c
    rw [memErase]
    by_cases heq : k = a
    · subst heq
      simp only [if_true, memByte_cons, ih]
      split_ifs <;> rfl
    · simp only [heq, if_false, memByte_cons, ih]
      by_cases hx : x = a
      · simp [hx, Ne.symm heq]
      · simp [hx]

/-- Settles O38: a `storeByte` is a store at the wrapped address, a `breakByte` an erasure there. -/
theorem storedByteIsReadBack : Obligations.StoredByteIsReadBack :=
  ⟨fun s _ b _ hinputs => ⟨_, step_of_input hinputs, memByte_memStore s.mem _ b⟩,
   fun s _ _ hinputs => ⟨_, step_of_input hinputs, memByte_memErase s.mem _⟩⟩

theorem memAnswer_mem (s : State) (err : Bool) : (s.memAnswer err).mem = s.mem := by
  cases hwait : s.memPort.waiting with
  | false => rw [memAnswer_of_not_waiting hwait]
  | true => rw [memAnswer_of_waiting hwait, State.withMemPort_mem]

theorem genAnswer_mem (s : State) (ok : Bool) (v : Value) : (s.genAnswer ok v).mem = s.mem := by
  cases hwait : s.gen.waiting with
  | false => rw [genAnswer_of_not_waiting hwait]
  | true => rw [genAnswer_of_waiting hwait, State.withGen_mem]

theorem deliver_mem (h : s.deliver = .next t) : t.mem = s.mem := by
  obtain ⟨-, hd⟩ | ⟨-, hd⟩ := deliver_cases s <;> rw [hd] at h <;> cases h
  rfl

theorem engineTurn_mem (h : engineTurn s = .next t) : t.mem = s.mem := by
  obtain ⟨-, ht⟩ | ⟨-, ⟨-, -, ht⟩ | ⟨-, ⟨-, ht⟩ | ⟨-, ⟨-, ht⟩ | ⟨-, ⟨-, ht⟩ | ⟨e, rest, -, ht⟩⟩⟩⟩⟩ :=
    engineTurn_cases s <;> rw [ht] at h
  · cases h; rfl
  · exact deliver_mem h
  · cases h; rfl
  · cases h; rfl
  · cases h; rfl
  · exact (runHead_keeps h).mem

/-- Only the two inputs by which another agent writes, or the memory fails, change the memory. -/
theorem applyInput_mem {i : Input} (h : applyInput i s = .next t) (hstore : ∀ a b, i ≠ .storeByte a b)
    (hbreak : ∀ a, i ≠ .breakByte a) : t.mem = s.mem := by
  cases i with
  | engineTurn => exact engineTurn_mem h
  | storeByte a b => exact absurd rfl (hstore a b)
  | breakByte a => exact absurd rfl (hbreak a)
  | memAnswer err => cases h; exact memAnswer_mem s err
  | genAnswer => cases h; exact genAnswer_mem s _ _
  | genAnswerWith ok v => cases h; exact genAnswer_mem s ok v
  | _ => cases h; rfl

/-- Settles O39: neither the engine's turn nor any other agent's input writes. -/
theorem noStepOfTheBlockWritesMemory : Obligations.NoStepOfTheBlockWritesMemory := by
  intro s t hstep hstore hbreak
  obtain ⟨-, hs⟩ | ⟨i, rest, hinputs, hs⟩ := step_cases s <;> rw [hs] at hstep
  · exact engineTurn_mem hstep
  · have hhead : s.inputs.head? = some i := by rw [hinputs, List.head?_cons]
    rw [hhead] at hstore hbreak
    exact applyInput_mem (s := s.withInputs rest) hstep (fun a b hi => hstore a b (congrArg some hi))
      fun a hi => hbreak a (congrArg some hi)

/-- Marking keeps the order, and marks the entries whose window holds the address. -/
theorem markWindow_getElem? {q : List Entry} {n : Nat} {e : Entry} (addrW a : Nat) (h : q[n]? = some e) :
    (markWindow addrW a q)[n]? =
      some { e with disturbed := e.disturbed || (readWindow addrW e.req).contains a } := by
  simp only [markWindow, List.getElem?_map, h, Option.map_some]
  cases (readWindow addrW e.req).contains a with
  | true => simp
  | false => simp

/-- Settles O40: a `storeByte` marks at the wrapped address. -/
theorem writeInFlightMarksItsReaders : Obligations.WriteInFlightMarksItsReaders :=
  fun _ _ _ _ hinputs => ⟨_, step_of_input hinputs, markWindow_map_req .., fun _ _ => markWindow_getElem? _ _⟩

end Sys2Proof.Machine

/-! How a request past its pre-checks ends once its port has answered, at once or late, and what it answers when its bytes were
written in flight (20_memory.md R59, R66; 41_fastpath.md R110; 42_generic.md R152). -/

namespace Sys2Proof.Machine

variable {s s' : State} {e : Entry} {i : Instr}

/-- A fast-path request whose read has ended is settled from the read's outcome. -/
theorem exec_fast_of_load {bs : Option (List Byte)} (hfast : i.isFast = true) (hq : s.q.head? = some e)
    (hpre : precheck e.req i.width = none)
    (hload : loadBytes s (effAddr s.cfg.addrW e.req) (i.width / 8) = .done bs s') :
    exec i s = .next (s'.settle e i.width i.signed (readResponse i bs)) := by
  obtain ⟨rest, hq⟩ := List.head?_eq_some_iff.1 hq
  simp only [exec_fast hfast, fastPath, hq, hpre, hload]
  cases bs with
  | none => rfl
  | some bs => rfl

/-- A generic request whose call has ended is settled from the decoder's outcome. -/
theorem exec_extg_of_call {w : BitVec 7} {sgn le : Bool} {v : Option Value} (hq : s.q.head? = some e)
    (hpre : precheck e.req w.toNat = none)
    (hcall : genericCall s (genericRequest s.cfg.addrW e.req w sgn le) = .done v s') :
    exec (.extg w sgn le) s = .next (s'.settle e w.toNat sgn (decoderResponse sgn v)) := by
  obtain ⟨rest, hq⟩ := List.head?_eq_some_iff.1 hq
  simp only [exec_extg, execExtg, hq, hpre, hcall]
  cases v with
  | none => rfl
  | some v => rfl

/-- The load stage consumes an answer that has come, an error or the lanes asked for. -/
theorem loadBytes_answered (h : s.memPort.rspValid = true) (a k : Nat) :
    loadBytes s a k = .done (if s.memPort.rspErr then none else some (laneBytes s.memPort.rspData k))
      (s.withMemPort { s.memPort with rspValid := false }) :=
  if_pos h

theorem genericCall_answered (h : s.gen.rspValid = true) (g : GenReq) :
    genericCall s g = .done (if s.gen.rspOk then some s.gen.rspValue else none)
      (s.withGen { s.gen with rspValid := false, rspReady := false }) :=
  if_pos h

/-- Settles O27: the answer that has come ends the read. -/
theorem lateMemoryAnswerCompletesTheRequest : Obligations.LateMemoryAnswerCompletesTheRequest := by
  rintro i s e hfast ⟨hq, hundisturbed⟩ hpre hrsp
  rw [exec_fast_of_load hfast hq hpre (loadBytes_answered hrsp _ _), settle_undisturbed hundisturbed]
  cases s.memPort.rspErr with
  | true => rfl
  | false => rfl

/-- A port that answers at once, or has answered, ends the instruction with a settled response, whatever the answer. -/
theorem exec_settles (hq : s.q.head? = some e) (hpre : precheck e.req i.width = none)
    (hmem : i.isFast = true → s.memPort.answersNow ∨ s.memPort.rspValid = true)
    (hgen : i.isFast = false → s.gen.answersNow ∨ s.gen.rspValid = true) :
    ∃ (s' : State) (r : Response), exec i s = .next (s'.settle e i.width i.signed r) := by
  cases hfast : i.isFast with
  | true =>
    rcases hmem hfast with hnow | hrsp
    · exact ⟨_, _, exec_fast_of_load hfast hq hpre (loadBytes_now _ _ hnow)⟩
    · exact ⟨_, _, exec_fast_of_load hfast hq hpre (loadBytes_answered hrsp _ _)⟩
  | false =>
    obtain ⟨w, sgn, le, rfl⟩ := Instr.eq_extg_of_not_isFast hfast
    rcases hgen hfast with hnow | hrsp
    · exact ⟨_, _, exec_extg_of_call hq hpre (genericCall_now _ hnow)⟩
    · exact ⟨_, _, exec_extg_of_call hq hpre (genericCall_answered hrsp _)⟩

/-- The value of a disturbed response is some pattern extended as SGN says, nonnegative for a signed request of 64 bits (R66). -/
theorem disturbedExtend_bounded (w : Nat) (sgn : Bool) (v : Value) :
    (∃ raw : BitVec w, disturbedExtend w sgn v = if sgn then raw.signExtend 64 else raw.setWidth 64) ∧
    (w = 64 → sgn = true → (disturbedExtend w sgn v).getLsbD 63 = false) := by
  by_cases h : w = 64 ∧ sgn = true
  · obtain ⟨rfl, rfl⟩ := h
    exact ⟨⟨v &&& 0x7FFF_FFFF_FFFF_FFFF#64, by simp [disturbedExtend]⟩, fun _ _ => by simp [disturbedExtend]⟩
  · exact ⟨⟨v.setWidth w, by simp only [disturbedExtend, if_neg h]; rfl⟩, fun hw hsgn => absurd ⟨hw, hsgn⟩ h⟩

/-- A disturbed response is one of the four that R66 allows. -/
theorem disturbedResponse_cases (w : Nat) (sgn : Bool) (k : Nat) :
    disturbedResponse w sgn k = .ok (disturbedExtend w sgn (Config.disturbedValue k)) sgn ∨
    ∃ c, (c = .sign64 ∨ c = .genericFail ∨ c = .busError) ∧ disturbedResponse w sgn k = .fail c := by
  unfold disturbedResponse
  split_ifs
  · exact .inl rfl
  · exact .inr ⟨.sign64, .inl rfl, rfl⟩
  · exact .inr ⟨.genericFail, .inr (.inl rfl), rfl⟩
  · exact .inr ⟨.busError, .inr (.inr rfl), rfl⟩

/-- What R66 allows on the response registers, for a request of `w` bits with sign flag `sgn`. -/
def RspData.Bounded (w : Nat) (sgn : Bool) (d : RspData) : Prop :=
  (d.cause = 0 ∨ d.cause = 3 ∨ d.cause = 4 ∨ d.cause = 6) ∧ (d.ok = true ↔ d.cause = 0) ∧
  (d.ok = true → d.signed = sgn ∧
    ∃ raw : BitVec w, d.value = (if sgn then raw.signExtend 64 else raw.setWidth 64) ∧
      (w = 64 → sgn = true → d.value.getLsbD 63 = false))

theorem disturbedResponse_bounded (w : Nat) (sgn : Bool) (k : Nat) : (disturbedResponse w sgn k).data.Bounded w sgn := by
  obtain hok | ⟨c, hc, hfail⟩ := disturbedResponse_cases w sgn k
  · obtain ⟨⟨raw, hraw⟩, htop⟩ := disturbedExtend_bounded w sgn (Config.disturbedValue k)
    rw [hok]
    exact ⟨.inl rfl, iff_of_true rfl rfl, fun _ => ⟨rfl, raw, hraw, htop⟩⟩
  · rw [hfail]
    rcases hc with rfl | rfl | rfl <;> simp [Response.data, RspData.Bounded, Cause.code]

/-- Settles O41: whatever the port answered, a disturbed request is settled with a free response inside the bounds. -/
theorem writeInFlightLeavesABoundedResponse : Obligations.WriteInFlightLeavesABoundedResponse := by
  intro i s e _ hq hdisturbed hpre hmem hgen
  obtain ⟨s', r, hexec⟩ := exec_settles hq hpre hmem hgen
  obtain ⟨hundisturbed, -⟩ | ⟨-, hsettle⟩ := settle_cases s' e i.width i.signed r
  · rw [hdisturbed] at hundisturbed
    cases hundisturbed
  · exact ⟨_, hexec.trans (congrArg Host.Outcome.next hsettle), rfl, disturbedResponse_bounded i.width i.signed s'.freeCount⟩

end Sys2Proof.Machine

/-! The fields of a control word (30_encoding.md R71): a word is determined by its four fields, and `ctrlOf` is the word without
reserved bits of the other three. -/

namespace Sys2Proof

section fields

variable (w : BitVec 7) (sgn le : Bool) (c : CtrlWord)

/-- R71, bit by bit. -/
theorem getLsbD_ctrlOf (k : Nat) :
    (ctrlOf w sgn le).getLsbD k = if k < 7 then w.getLsbD k else if k = 7 then le else decide (k = 8) && sgn := by
  calc
    _ = if k < 7 then w.getLsbD k else (((0#7).concat sgn).concat le).getLsbD (k - 7) := BitVec.getLsbD_append ..
    _ = _ := by
      simp only [BitVec.getLsbD_concat, BitVec.getLsbD_zero]
      obtain hlow | rfl | rfl | hhigh : k < 7 ∨ k = 7 ∨ k = 8 ∨ 9 ≤ k := by omega
      · simp [hlow]
      · simp
      · simp
      · simp [show ¬k < 7 by omega, show k - 7 ≠ 0 by omega, show k - 7 - 1 ≠ 0 by omega, show k ≠ 7 by omega,
          show k ≠ 8 by omega]

@[simp] theorem ctrlWidth_ctrlOf : ctrlWidth (ctrlOf w sgn le) = w := by
  ext k hk
  simp [ctrlWidth, getLsbD_ctrlOf, hk]

@[simp] theorem ctrlLe_ctrlOf : ctrlLe (ctrlOf w sgn le) = le := getLsbD_ctrlOf w sgn le 7

@[simp] theorem ctrlSgn_ctrlOf : ctrlSgn (ctrlOf w sgn le) = sgn := getLsbD_ctrlOf w sgn le 8

@[simp] theorem ctrlRsvd_ctrlOf : ctrlRsvd (ctrlOf w sgn le) = 0 := by
  ext k hk
  simp [ctrlRsvd, getLsbD_ctrlOf, show ¬9 + k < 7 by omega, show 9 + k ≠ 7 by omega, show 9 + k ≠ 8 by omega]

/-- Every bit of a word lies in one of its fields. -/
theorem ctrlWord_ext {c d : CtrlWord} (hwidth : ctrlWidth c = ctrlWidth d) (hsgn : ctrlSgn c = ctrlSgn d)
    (hle : ctrlLe c = ctrlLe d) (hrsvd : ctrlRsvd c = ctrlRsvd d) : c = d := by
  refine BitVec.eq_of_getLsbD_eq fun k hk => ?_
  have hfield : k < 7 ∨ k = 7 ∨ k = 8 ∨ (9 ≤ k ∧ k - 9 < 7) := by omega
  obtain hlow | rfl | rfl | ⟨hhigh, hrange⟩ := hfield
  · simpa [ctrlWidth, hlow] using congrArg (·.getLsbD k) hwidth
  · exact hle
  · exact hsgn
  · simpa [ctrlRsvd, hrange, Nat.add_sub_cancel' hhigh] using congrArg (·.getLsbD (k - 9)) hrsvd

theorem ctrlOf_eq_iff :
    ctrlOf w sgn le = c ↔ ctrlRsvd c = 0 ∧ ctrlWidth c = w ∧ ctrlSgn c = sgn ∧ ctrlLe c = le := by
  constructor
  · rintro rfl
    simp
  · rintro ⟨hrsvd, rfl, rfl, rfl⟩
    exact ctrlWord_ext (by simp) (by simp) (by simp) (by simp [hrsvd])

theorem getLsbD_flag (b : Bool) (j : Nat) {k : Nat} (hk : k < 16) :
    (if b then BitVec.twoPow 16 j else 0).getLsbD k = (decide (k = j) && b) := by
  cases b <;> simp [hk, eq_comm]

/-- The word as R81 writes it. -/
theorem ctrlOf_eq_or :
    ctrlOf w sgn le = (if sgn then 0x100 else 0) ||| (if le then 0x80 else 0) ||| w.setWidth 16 := by
  change _ = (if sgn then BitVec.twoPow 16 8 else 0) ||| (if le then BitVec.twoPow 16 7 else 0) ||| w.setWidth 16
  refine BitVec.eq_of_getLsbD_eq fun k hk => ?_
  rw [getLsbD_ctrlOf, BitVec.getLsbD_or, BitVec.getLsbD_or, getLsbD_flag sgn 8 hk, getLsbD_flag le 7 hk,
    BitVec.getLsbD_setWidth]
  by_cases hlow : k < 7
  · simp [hlow, hk, show k ≠ 7 by omega, show k ≠ 8 by omega]
  · by_cases hk7 : k = 7
    · simp [hk7]
    · simp [hlow, hk7, BitVec.getLsbD_of_ge w k (by omega)]

theorem ctrlRsvd_toNat : (ctrlRsvd c).toNat = (c >>> 9).toNat := by
  have hc : c.toNat >>> 9 < 2 ^ 7 := by
    rw [Nat.shiftRight_eq_div_pow]
    omega
  rw [ctrlRsvd, BitVec.extractLsb'_toNat, BitVec.toNat_ushiftRight, Nat.mod_eq_of_lt hc]

theorem setWidth_ctrlWidth : (ctrlWidth c).setWidth 16 = c &&& 0x007F := by
  apply BitVec.eq_of_toNat_eq
  calc
    _ = (c.toNat >>> 0 % 2 ^ 7) % 2 ^ 16 := by rw [ctrlWidth, BitVec.toNat_setWidth, BitVec.extractLsb'_toNat]
    _ = c.toNat % 2 ^ 7 := Nat.mod_eq_of_lt (by omega)
    _ = c.toNat &&& 2 ^ 7 - 1 := (Nat.and_two_pow_sub_one_eq_mod c.toNat 7).symm
    _ = _ := (BitVec.toNat_and c 0x007F).symm

theorem ctrlWidth_toNat : (ctrlWidth c).toNat = (c &&& 0x007F).toNat := by
  rw [← setWidth_ctrlWidth, BitVec.toNat_setWidth]
  omega

/-- Words that agree under a mask agree on each bit of the mask. -/
theorem getLsbD_eq_of_and_eq {c d mask : CtrlWord} (h : c &&& mask = d &&& mask) {k : Nat} (hk : mask.getLsbD k = true) :
    c.getLsbD k = d.getLsbD k := by
  simpa [hk] using congrArg (·.getLsbD k) h

end fields

/-- The width set of EXTG as the table's row has it (R75). -/
theorem genericWidth_iff (w : BitVec 7) :
    genericWidth w = true ↔ 1 ≤ w.toNat ∧ w.toNat ≤ 63 ∧ w.toNat ∉ [8, 16, 32] := by
  simp only [genericWidth, widthNonzero, widthBelow64, widthNotFast, Bool.and_eq_true, bne_iff_ne, decide_eq_true_eq,
    BitVec.toNat_ne_iff_ne.symm, BitVec.ofNat_eq_ofNat, BitVec.toNat_ofNat, List.mem_cons, List.not_mem_nil, or_false]
  omega

/-- The same set as the legal widths that are none of the fast path's (R73). -/
theorem genericWidth_iff_legal_not_fast (w : BitVec 7) :
    genericWidth w = true ↔ w.toNat ≠ 0 ∧ w.toNat ≤ 64 ∧ ¬(w = 8 ∨ w = 16 ∨ w = 32 ∨ w = 64) := by
  simp only [genericWidth_iff, BitVec.toNat_eq, BitVec.ofNat_eq_ofNat, BitVec.toNat_ofNat, List.mem_cons,
    List.not_mem_nil, or_false]
  omega

theorem toNat_ofNat_of_le_64 {w : Nat} (h : w ≤ 64) : (BitVec.ofNat 7 w).toNat = w :=
  Nat.mod_eq_of_lt (by omega)

end Sys2Proof

/-! The decoder and the encoder are inverse to each other on legal words and well-formed instructions (30_encoding.md R74 to
R76). -/

namespace Sys2Proof

theorem decodeLegal_eq_extg {w : BitVec 7} (sgn le : Bool) (hfast : ¬(w = 8 ∨ w = 16 ∨ w = 32 ∨ w = 64)) :
    decodeLegal w sgn le = .extg w sgn le := by
  simp only [not_or] at hfast
  obtain ⟨h8, h16, h32, h64⟩ := hfast
  rw [decodeLegal, if_neg h8, if_neg h16, if_neg h32, if_neg h64]

/-- What a legal word selects is an instruction of the table. -/
theorem decodeLegal_wellFormed {w : BitVec 7} (sgn le : Bool) (hzero : w.toNat ≠ 0) (hmax : w.toNat ≤ 64) :
    (decodeLegal w sgn le).wellFormed = true := by
  by_cases hfast : w = 8 ∨ w = 16 ∨ w = 32 ∨ w = 64
  · obtain rfl | rfl | rfl | rfl := hfast <;> cases sgn <;> cases le <;> rfl
  · rw [decodeLegal_eq_extg sgn le hfast]
    exact (genericWidth_iff_legal_not_fast w).2 ⟨hzero, hmax, hfast⟩

/-- An instruction's word is made of the instruction's own width and flags. -/
theorem encode_eq_ctrlOf (i : Instr) : encode i = ctrlOf (BitVec.ofNat 7 i.width) i.signed i.little := by
  cases i with
  | extg w sgn le => simp [encode, Instr.width, Instr.signed, Instr.little]
  | _ => rfl

@[simp] theorem encode_decodeLegal (w : BitVec 7) (sgn le : Bool) : encode (decodeLegal w sgn le) = ctrlOf w sgn le := by
  simp [encode_eq_ctrlOf]

theorem Instr.wellFormed_width {i : Instr} (h : i.wellFormed = true) : i.width ≠ 0 ∧ i.width ≤ 64 := by
  cases i with
  | extg w sgn le =>
    obtain ⟨hzero, hmax, -⟩ := (genericWidth_iff_legal_not_fast w).1 h
    exact ⟨hzero, hmax⟩
  | _ => simp [Instr.width]

/-- An instruction of the table is determined by its width and its two flags. -/
theorem decodeLegal_of_wellFormed {i : Instr} (h : i.wellFormed = true) :
    decodeLegal (BitVec.ofNat 7 i.width) i.signed i.little = i := by
  cases i with
  | extg w sgn le =>
    obtain ⟨-, -, hfast⟩ := (genericWidth_iff_legal_not_fast w).1 h
    rw [Instr.width, BitVec.ofNat_toNat, BitVec.setWidth_eq]
    exact decodeLegal_eq_extg sgn le hfast
  | _ => rfl

/-- Which words are legal (R76). -/
theorem decode_ok_iff (c : CtrlWord) :
    (∃ i, decode c = .ok i) ↔ ctrlRsvd c = 0 ∧ (ctrlWidth c).toNat ≠ 0 ∧ (ctrlWidth c).toNat ≤ 64 := by
  cases hdecode : decode c with
  | ok i =>
    obtain ⟨hrsvd, hzero, hmax, -⟩ := decode_ok_fields hdecode
    exact iff_of_true ⟨i, rfl⟩ ⟨hrsvd, hzero, hmax⟩
  | error x =>
    refine iff_of_false (by simp) fun ⟨hrsvd, hzero, hmax⟩ => ?_
    obtain hbad | hbad | hbad := decode_error_fields hdecode
    · exact hbad hrsvd
    · exact hzero hbad
    · omega

theorem decode_error_iff (c : CtrlWord) : (∃ x, decode c = .error x) ↔ ¬∃ i, decode c = .ok i := by
  cases decode c <;> simp

theorem decode_ctrlOf {w : BitVec 7} (sgn le : Bool) (hzero : w.toNat ≠ 0) (hmax : w.toNat ≤ 64) :
    decode (ctrlOf w sgn le) = .ok (decodeLegal w sgn le) := by
  obtain ⟨i, hlegal⟩ := (decode_ok_iff (ctrlOf w sgn le)).2 ⟨by simp, by simpa using hzero, by simpa using hmax⟩
  obtain ⟨-, -, -, rfl⟩ := decode_ok_fields hlegal
  simpa using hlegal

theorem decode_ctrlOf_ofNat {w : Nat} (sgn le : Bool) (hzero : w ≠ 0) (hmax : w ≤ 64) :
    decode (ctrlOf (BitVec.ofNat 7 w) sgn le) = .ok (decodeLegal (BitVec.ofNat 7 w) sgn le) :=
  decode_ctrlOf sgn le (by rwa [toNat_ofNat_of_le_64 hmax]) (by rwa [toNat_ofNat_of_le_64 hmax])

theorem decode_encode {i : Instr} (h : i.wellFormed = true) : decode (encode i) = .ok i := by
  obtain ⟨hzero, hmax⟩ := Instr.wellFormed_width h
  rw [encode_eq_ctrlOf, decode_ctrlOf_ofNat _ _ hzero hmax, decodeLegal_of_wellFormed h]

/-- A word decodes to an instruction of the table exactly if it is that instruction's word. -/
theorem decode_eq_ok_iff (c : CtrlWord) (i : Instr) : decode c = .ok i ↔ encode i = c ∧ i.wellFormed = true := by
  constructor
  · intro hlegal
    obtain ⟨hrsvd, hzero, hmax, rfl⟩ := decode_ok_fields hlegal
    exact ⟨by simp [ctrlOf_eq_iff, hrsvd], decodeLegal_wellFormed _ _ hzero hmax⟩
  · rintro ⟨rfl, hwf⟩
    exact decode_encode hwf

/-- Settles O1: the word of an instruction holds its width and flags, and those determine the instruction. -/
theorem decodeOfEncodeIsTheInstruction : Obligations.DecodeOfEncodeIsTheInstruction := by
  intro i hwf
  exact decode_encode hwf

/-- Settles O2: the fields of a legal word determine its instruction, and rebuild the word. -/
theorem encodeOfDecodeIsTheWord : Obligations.EncodeOfDecodeIsTheWord := by
  intro c i hlegal
  exact (decode_eq_ok_iff c i).1 hlegal

/-- Settles O4: a word is illegal if and only if it is not legal. -/
theorem illegalWordsAreTheReservedAndTheBadWidths : Obligations.IllegalWordsAreTheReservedAndTheBadWidths := by
  intro c
  have hrsvd : ctrlRsvd c = 0 ↔ (c >>> 9).toNat = 0 := by
    rw [← ctrlRsvd_toNat, BitVec.toNat_eq]
    rfl
  rw [decode_error_iff, decode_ok_iff, hrsvd, ctrlWidth_toNat]
  omega

end Sys2Proof

/-! Each row of the opcode table, by its mask and its match (30_encoding.md R75). -/

namespace Sys2Proof

/-- A row without operands: the mask takes every bit of the word. -/
theorem decode_row_exact {i : Instr} (hwf : i.wellFormed = true) (c : CtrlWord) :
    decode c = .ok i ↔ c &&& 0xFFFF = encode i := by
  have hmask : c &&& 0xFFFF = c := BitVec.and_allOnes
  rw [hmask, decode_eq_ok_iff, and_iff_left hwf, eq_comm]

/-- The 8-bit rows: the mask leaves out the LE bit, which is the instruction's own (R77). -/
theorem decode_row_le {i : Instr} {m : CtrlWord} (hwf : i.wellFormed = true) (hrow : encode i &&& 0xFF7F = m)
    (c : CtrlWord) : decode c = .ok i ↔ c &&& 0xFF7F = m ∧ i.little = c.getLsbD 7 := by
  have hle : i.little = (encode i).getLsbD 7 := by
    rw [encode_eq_ctrlOf]
    exact (ctrlLe_ctrlOf ..).symm
  rw [decode_eq_ok_iff, and_iff_left hwf, ← hrow, hle]
  constructor
  · rintro rfl
    exact ⟨rfl, rfl⟩
  · rintro ⟨hmask, hbit⟩
    refine BitVec.eq_of_getLsbD_eq fun k hk => ?_
    by_cases hk7 : k = 7
    · rw [hk7, hbit]
    · have hin : ∀ k < 16, k ≠ 7 → (0xFF7F : CtrlWord).getLsbD k = true := by decide
      exact (getLsbD_eq_of_and_eq hmask (hin k hk hk7)).symm

theorem ctrlRsvd_eq_zero_of_mask {c : CtrlWord} (h : c &&& 0xFE00 = 0x0000) : ctrlRsvd c = 0 := by
  ext k hk
  have hin : ∀ k < 7, (0xFE00 : CtrlWord).getLsbD (9 + k) = true := by decide
  simpa [ctrlRsvd] using getLsbD_eq_of_and_eq (d := 0) (by simpa using h) (hin k hk)

/-- The EXTG row, for the widths of its set. -/
theorem decode_row_extg (c : CtrlWord) (w : BitVec 7) (sgn le : Bool) :
    decode c = .ok (.extg w sgn le) ↔
      c &&& 0xFE00 = 0x0000 ∧ w.setWidth 16 = c &&& 0x007F ∧ sgn = c.getLsbD 8 ∧ le = c.getLsbD 7 ∧
        1 ≤ w.toNat ∧ w.toNat ≤ 63 ∧ w.toNat ∉ [8, 16, 32] := by
  rw [decode_eq_ok_iff, ← genericWidth_iff, ← setWidth_ctrlWidth]
  constructor
  · rintro ⟨rfl, hwidth⟩
    exact ⟨Laws.TableRow.extg w sgn le, by simp [encode], (ctrlSgn_ctrlOf w sgn le).symm, (ctrlLe_ctrlOf w sgn le).symm,
      hwidth⟩
  · rintro ⟨hrsvd, hextended, rfl, rfl, hwidth⟩
    have hfield : ctrlWidth c = w := by simpa using congrArg (·.setWidth 7) hextended.symm
    exact ⟨(ctrlOf_eq_iff ..).2 ⟨ctrlRsvd_eq_zero_of_mask hrsvd, hfield, rfl, rfl⟩, hwidth⟩

/-- Settles O3: a word decodes to an instruction if and only if it is the instruction's own, so each row is read off its word. -/
theorem decodingFollowsTheOpcodeMap : Obligations.DecodingFollowsTheOpcodeMap := by
  intro c
  exact ⟨fun le => decode_row_le rfl (Laws.TableRow.ext8u le) c, fun le => decode_row_le rfl (Laws.TableRow.ext8s le) c,
    decode_row_exact rfl c, decode_row_exact rfl c, decode_row_exact rfl c, decode_row_exact rfl c,
    decode_row_exact rfl c, decode_row_exact rfl c, decode_row_exact rfl c, decode_row_exact rfl c,
    decode_row_exact rfl c, decode_row_exact rfl c, decode_row_exact rfl c, decode_row_exact rfl c,
    decode_row_extg c⟩

/-- Settles O5: each word is evaluated. -/
theorem specWordsDecodeAsListed : Obligations.SpecWordsDecodeAsListed :=
  ⟨rfl, rfl, rfl, rfl, rfl, rfl, rfl, rfl, rfl, rfl⟩

/-- Settles O6: the meanings of EXT8U and EXT8S do not look at the LE bit. -/
theorem eightBitInstructionsIgnoreTheLittleEndianBit : Obligations.EightBitInstructionsIgnoreTheLittleEndianBit :=
  ⟨decode_encode (i := .ext8u false) rfl, decode_encode (i := .ext8u true) rfl, decode_encode (i := .ext8s false) rfl,
    decode_encode (i := .ext8s true) rfl, fun _ => ⟨rfl, rfl⟩⟩

end Sys2Proof

/-! The assembler (30_encoding.md R80, R81): which lines it takes, and what it makes of them. -/

namespace Sys2Proof

theorem buildRequest_of_inRange {addrW base len off : Nat} (c : CtrlWord)
    (hbase : base < 2 ^ addrW) (hlen : len < 2 ^ addrW) (hoff : off < 2 ^ 64) :
    buildRequest addrW base len off c = some { base := base, len := len, offset := BitVec.ofNat 64 off, ctrl := c } :=
  if_pos ⟨hbase, hlen, hoff⟩

theorem buildRequest_of_outOfRange {addrW base len off : Nat} (c : CtrlWord)
    (h : 2 ^ addrW ≤ base ∨ 2 ^ addrW ≤ len ∨ 2 ^ 64 ≤ off) : buildRequest addrW base len off c = none :=
  if_neg (by omega)

theorem buildRequest_eq_some {addrW base len off : Nat} {c : CtrlWord} {r : Request}
    (h : buildRequest addrW base len off c = some r) : r.fits addrW ∧ r.ctrl = c := by
  unfold buildRequest at h
  split_ifs at h with hrange
  obtain ⟨hbase, hlen, -⟩ := hrange
  cases h
  exact ⟨⟨hbase, hlen⟩, rfl⟩

theorem fastWords_lookup_of_mem : ∀ p ∈ fastWords, fastWords.lookup p.1 = some p.2 := by decide

theorem fastWords_legal : ∀ p ∈ fastWords, ∃ i, decode p.2 = .ok i := by
  simp only [decode_ok_iff]
  decide

/-- Whatever line the assembler takes, it builds the request from operands in range and a legal word. -/
theorem assemble_eq_some {addrW : Nat} {l : AsmLine} {r : Request} (h : assemble addrW l = some r) :
    r.fits addrW ∧ ∃ i, decode r.ctrl = .ok i := by
  cases l with
  | fast m base len off =>
    simp only [assemble] at h
    split at h
    case h_1 c hlookup =>
      obtain ⟨l₁, l₂, hwords, -⟩ := List.lookup_eq_some_iff.1 hlookup
      obtain ⟨hfits, rfl⟩ := buildRequest_eq_some h
      exact ⟨hfits, fastWords_legal (m, r.ctrl) (by simp [hwords])⟩
    case h_2 => cases h
  | extg w sgn le base len off =>
    simp only [assemble] at h
    split_ifs at h with hw
    obtain ⟨-, hgeneric⟩ := hw
    obtain ⟨hfits, hctrl⟩ := buildRequest_eq_some h
    exact ⟨hfits, _, (congrArg decode hctrl).trans (decode_encode (i := .extg _ sgn le) hgeneric)⟩
  | ext w sgn le base len off =>
    simp only [assemble] at h
    split_ifs at h with hw
    obtain ⟨hpos, hmax⟩ := hw
    obtain ⟨hfits, hctrl⟩ := buildRequest_eq_some h
    exact ⟨hfits, _, (congrArg decode hctrl).trans (decode_ctrlOf_ofNat sgn le (Nat.ne_of_gt hpos) hmax)⟩

theorem assemble_fast_of_mem {addrW base len off : Nat} {m : String} {c : CtrlWord} (h : (m, c) ∈ fastWords) :
    assemble addrW (.fast m base len off) = buildRequest addrW base len off c := by
  simp [assemble, fastWords_lookup_of_mem _ h]

theorem assemble_fast_of_unknown {addrW base len off : Nat} {m : String} (h : m ∉ fastWords.map Prod.fst) :
    assemble addrW (.fast m base len off) = none := by
  have hnone : fastWords.lookup m = none := by
    rw [List.lookup_eq_none_iff]
    intro p hp
    simpa using fun heq : m = p.1 => h (heq ▸ List.mem_map_of_mem hp)
  simp [assemble, hnone]

theorem assemble_of_outOfRange {addrW base len off : Nat} (w : Nat) (m : String) (sgn le : Bool)
    (h : 2 ^ addrW ≤ base ∨ 2 ^ addrW ≤ len ∨ 2 ^ 64 ≤ off) :
    assemble addrW (.fast m base len off) = none ∧ assemble addrW (.extg w sgn le base len off) = none ∧
      assemble addrW (.ext w sgn le base len off) = none := by
  have hnone (c : CtrlWord) : buildRequest addrW base len off c = none := buildRequest_of_outOfRange c h
  simp only [assemble, hnone, ite_self, and_true]
  split <;> rfl

theorem assemble_extg_of_badWidth {addrW base len off w : Nat} {sgn le : Bool}
    (h : w = 0 ∨ w = 8 ∨ w = 16 ∨ w = 32 ∨ 64 ≤ w) : assemble addrW (.extg w sgn le base len off) = none := by
  refine if_neg fun ⟨hw, hgeneric⟩ => ?_
  have hwidth : (BitVec.ofNat 7 w).toNat = w := Nat.mod_eq_of_lt hw
  simp only [genericWidth_iff, hwidth, List.mem_cons, List.not_mem_nil, or_false] at hgeneric
  omega

/-- Settles O7: one lemma per clause, the first by inversion of the assembler. -/
theorem assemblerEmitsOnlyLegalRequests : Obligations.AssemblerEmitsOnlyLegalRequests := by
  refine ⟨fun addrW l r h => ?_, fun addrW base len off m c hrow hbase hlen hoff => ?_,
    fun addrW base len off m hunknown => assemble_fast_of_unknown hunknown,
    fun addrW base len off w m sgn le hrange => assemble_of_outOfRange w m sgn le hrange,
    fun addrW base len off w sgn le hw => assemble_extg_of_badWidth hw⟩
  · obtain ⟨hfits, i, hlegal⟩ := assemble_eq_some h
    exact ⟨hfits, i, hlegal, ((decode_eq_ok_iff r.ctrl i).1 hlegal).2⟩
  · exact (assemble_fast_of_mem hrow).trans (buildRequest_of_inRange c hbase hlen hoff)

/-- The control word of EXT, as R81 writes it. -/
theorem pseudoWord_eq_ctrlOf {w : Nat} (sgn le : Bool) (h : w ≤ 64) :
    (if sgn then 0x100 else 0) ||| (if le then 0x80 else 0) ||| BitVec.ofNat 16 w = ctrlOf (BitVec.ofNat 7 w) sgn le := by
  have hextended : (BitVec.ofNat 7 w).setWidth 16 = BitVec.ofNat 16 w := by
    apply BitVec.eq_of_toNat_eq
    rw [BitVec.toNat_setWidth, toNat_ofNat_of_le_64 h, BitVec.toNat_ofNat]
  rw [ctrlOf_eq_or, hextended]

/-- Settles O8: the word of R81 is `ctrlOf` of the width and the flags, and its instruction has that width and those flags. -/
theorem pseudoExtExpandsToOneRequest : Obligations.PseudoExtExpandsToOneRequest := by
  intro addrW w sgn le base len off hbase hlen hoff
  refine ⟨fun hpos hmax => ?_, fun hbad => if_neg (by omega)⟩
  have hwidth := toNat_ofNat_of_le_64 hmax
  rw [pseudoWord_eq_ctrlOf sgn le hmax]
  refine ⟨(if_pos ⟨hpos, hmax⟩).trans (buildRequest_of_inRange _ hbase hlen hoff), _,
    decode_ctrlOf_ofNat sgn le (Nat.ne_of_gt hpos) hmax, (decodeLegal_width ..).trans hwidth, decodeLegal_signed ..,
    decodeLegal_little .., ?_⟩
  rw [decodeLegal_isFast]
  simp only [BitVec.toNat_eq, hwidth, BitVec.ofNat_eq_ofNat, BitVec.toNat_ofNat, Nat.reducePow, Nat.reduceMod]

end Sys2Proof

/-! The pre-checks in ℕ, and what a request that fails one of them does (40_bounds_dispatch.md R91 to R99). -/

namespace Sys2Proof.Machine

variable {r : Request} {w : Nat}

/-- The guarded subtraction of R91 is the comparison of R92, at every width. -/
theorem exceedsBuffer_iff : exceedsBuffer r w = true ↔ 8 * r.len < r.offset.toNat + w := by
  simp only [exceedsBuffer, Bool.or_eq_true, decide_eq_true_eq]
  unfold totalBits
  omega

theorem offsetUnaligned_iff : offsetUnaligned r = true ↔ r.offset.toNat % 8 ≠ 0 := by simp [offsetUnaligned]

theorem precheck_eq_bounds_iff : precheck r w = some .bounds ↔ 8 * r.len < r.offset.toNat + w := by
  rw [← exceedsBuffer_iff]
  unfold precheck
  split_ifs <;> simp_all

theorem precheck_eq_unaligned_iff :
    precheck r w = some .unaligned ↔ r.offset.toNat + w ≤ 8 * r.len ∧ r.offset.toNat % 8 ≠ 0 := by
  rw [← not_lt, ← exceedsBuffer_iff, ← offsetUnaligned_iff]
  unfold precheck
  split_ifs <;> simp_all

/-- A request past its pre-checks lies in the buffer and starts at a byte (R96). -/
theorem precheck_eq_none_iff :
    precheck r w = none ↔ r.offset.toNat + w ≤ 8 * r.len ∧ r.offset.toNat % 8 = 0 := by
  rw [precheck_none]
  omega

/-- Settles O13: each case is one of the three outcomes of the pre-checks. An in-bounds offset of `2^64 - 1` needs a `LEN` of at
least `2^61`, hence the ADDR_W. -/
theorem boundsCheckBoundaryCases : Obligations.BoundsCheckBoundaryCases := by
  intro r w hpos _
  simp only [precheck_eq_bounds_iff, precheck_eq_unaligned_iff, precheck_eq_none_iff, ne_eq]
  refine ⟨by omega, by omega, by omega, by omega, by omega, fun addrW hlong ⟨_, hlen⟩ => ?_, by omega⟩
  have hpow : 2 ^ 61 < 2 ^ addrW := by omega
  exact (Nat.pow_lt_pow_iff_right one_lt_two).1 hpow

/-- Settles O10: past the buffer there is no room for any width, 0 included. -/
theorem offsetPastTheBufferNeverWraps : Obligations.OffsetPastTheBufferNeverWraps :=
  ⟨fun _ _ hpast => precheck_eq_bounds_iff.2 (hpast.trans_le (Nat.le_add_right _ _)),
    fun _ _ => precheck_eq_bounds_iff.2 (show 8 * 5 < (0xFFFFFFFFFFFFFFF8 : Offset).toNat + 8 by decide)⟩

/-- Settles O9: the check is the comparison in ℕ, and a failed check is the whole answer of every instruction. -/
theorem boundsFailExactlyWhenTheRangeExceedsTheBuffer : Obligations.BoundsFailExactlyWhenTheRangeExceedsTheBuffer := by
  refine ⟨fun _ _ _ => precheck_eq_bounds_iff, fun i s e _ hq hlong => ?_, fun r w _ hpre => ?_⟩
  · exact exec_precheck_some hq (precheck_eq_bounds_iff.2 hlong)
  · exact Nat.sub_le_sub_right (precheck_eq_none_iff.1 hpre).1 1

/-- Settles O11: an unaligned offset fails one of the two checks, and the first one that fails is the whole answer. -/
theorem unalignedOffsetFailsForEveryInstruction : Obligations.UnalignedOffsetFailsForEveryInstruction := by
  intro i s e _ hq hunaligned
  refine ⟨fun hfits => exec_precheck_some hq (precheck_eq_unaligned_iff.2 ⟨hfits, hunaligned⟩), ?_⟩
  cases hpre : precheck e.req i.width with
  | some c => exact ⟨c, exec_precheck_some hq hpre⟩
  | none => exact absurd (precheck_eq_none_iff.1 hpre).2 hunaligned

end Sys2Proof.Machine

/-! How a step comes to run the instruction at the head of the queue (40_bounds_dispatch.md R90, R96; 30_encoding.md R74). -/

namespace Sys2Proof.Machine

variable {s : State} {e : Entry} {i : Instr}

theorem runHead_of_decode_ok (s : State) (h : decode e.req.ctrl = .ok i) : runHead s e = exec i s := by
  simp only [runHead, h]

theorem runHead_of_decode_error {x : Illegal} (s : State) (h : decode e.req.ctrl = .error x) :
    runHead s e = .next (s.respond (.fail .illegal)) := by
  simp only [runHead, h]

/-- The engine's turn is the head where nothing is to be transferred. -/
theorem engineTurn_of_head (hreset : s.inReset = false) (hrsp : s.rsp.valid = false)
    (hreq : (s.req.valid && s.req.ready && s.hasRoom) = false) (hq : s.q.head? = some e) :
    engineTurn s = runHead s e := by
  obtain ⟨rest, hq⟩ := List.head?_eq_some_iff.1 hq
  simp only [engineTurn, hreset, hrsp, hreq, hq, Bool.false_and, Bool.false_eq_true, if_false]

theorem step_of_decode_ok (hruns : s.runsHead) (hq : s.q.head? = some e) (h : decode e.req.ctrl = .ok i) :
    step s = exec i s :=
  (step_of_runsHead hruns hq).trans (runHead_of_decode_ok s h)

/-- The state built for one word has a request with that word at its head, which runs next. -/
theorem withHeadWord_runsHead (s : State) (c : CtrlWord) : (s.withHeadWord c).runsHead := ⟨rfl, rfl, rfl, rfl⟩

/-- The instruction of a word of the opcode table is that of its control word. -/
theorem decode_of_decodeTableWord {nbits n : Nat} (h : decodeTableWord nbits n = some i) :
    decode (BitVec.ofNat 16 (n % 2 ^ nbits)) = .ok i := by
  unfold decodeTableWord at h
  split at h
  · cases hdecode : decode (BitVec.ofNat 16 (n % 2 ^ nbits)) <;> simp_all
  · cases h

/-- Settles O47: the engine's turn runs the head, whether it is a step of its own, an input, or follows `withFetchWord`. -/
theorem stepRunsTheDecodedInstruction : Obligations.StepRunsTheDecodedInstruction := by
  refine ⟨fun s e i => step_of_decode_ok, fun s rest e i hinputs hreset hrsp hreq hq hdecode => ?_, fun s n i htable => ?_⟩
  · calc step s = engineTurn (s.withInputs rest) := step_of_input hinputs
      _ = runHead (s.withInputs rest) e := engineTurn_of_head hreset hrsp hreq hq
      _ = exec i (s.withInputs rest) := runHead_of_decode_ok _ hdecode
  · exact step_of_decode_ok (withHeadWord_runsHead s _) rfl (decode_of_decodeTableWord htable)

/-- A failed pre-check of the head is the whole step. -/
theorem step_of_precheck_some {c : Cause} (hruns : s.runsHead) (hq : s.q.head? = some e) (h : decode e.req.ctrl = .ok i)
    (hpre : precheck e.req i.width = some c) : step s = .next (s.respond (.fail c)) :=
  (step_of_decode_ok hruns hq h).trans (exec_precheck_some hq hpre)

/-- Settles O12: an illegal word has no instruction to check, and the pre-checks of a legal one are `precheck`. -/
theorem prechecksRunInOrderAndReadNothing : Obligations.PrechecksRunInOrderAndReadNothing := by
  intro s e hruns hq
  refine ⟨fun ⟨x, hillegal⟩ => ?_, fun i hdecode hlong => ?_, fun i hdecode hfits hunaligned => ?_⟩
  · exact (step_of_runsHead hruns hq).trans (runHead_of_decode_error s hillegal)
  · exact step_of_precheck_some hruns hq hdecode (precheck_eq_bounds_iff.2 hlong)
  · exact step_of_precheck_some hruns hq hdecode (precheck_eq_unaligned_iff.2 ⟨hfits, hunaligned⟩)

/-- Settles O48: the response is that of `step_computes_execute`, and running the head keeps the queue and the memory. -/
theorem stepComputesExecute : Obligations.StepComputesExecute := by
  intro s e hruns hhead hmem hgen
  obtain ⟨t, hstep, hrsp⟩ := step_computes_execute hruns hhead hmem hgen
  have hkeeps : KeptByExec s t := runHead_keeps ((step_of_runsHead hruns hhead.1).symm.trans hstep)
  exact ⟨t, hstep, hrsp, hkeeps.q, hkeeps.mem, hkeeps.received⟩

end Sys2Proof.Machine

/-! The pattern that the bytes read are joined to, in either byte order, at the four fast-path widths (20_memory.md R51, R52;
41_fastpath.md R111). -/

namespace Sys2Proof.Machine

variable (a b c d e f g h : Byte)

/-- A byte read after the others joins the big-endian pattern below them. -/
theorem beAssemble_append_singleton (w : Nat) (bs : List Byte) :
    beAssemble (w + 8) (bs ++ [a]) = beAssemble w bs ++ a := by
  refine BitVec.eq_of_getLsbD_eq fun j hj => ?_
  have hbit := Nat.testBit_two_pow_mul_add (beNat bs) a.isLt j
  simp only [beAssemble, BitVec.getLsbD_ofNat, BitVec.getLsbD_append, beNat_append_singleton] at hbit ⊢
  rw [hbit]
  by_cases hlow : j < 8
  · simp [hlow, hj, BitVec.testBit_toNat]
  · simp [hlow, hj, show j - 8 < w by omega]

theorem beAssemble_one : beAssemble 8 [a] = a := by
  simp [beAssemble, beNat]

theorem beAssemble_two : beAssemble 16 [a, b] = a ++ b :=
  (beAssemble_append_singleton b 8 [a]).trans (congrArg (· ++ b) (beAssemble_one a))

theorem beAssemble_four : beAssemble 32 [a, b, c, d] = a ++ b ++ c ++ d := by
  show beAssemble (8 + 8 + 8 + 8) ([a] ++ [b] ++ [c] ++ [d]) = _
  rw [beAssemble_append_singleton, beAssemble_append_singleton, beAssemble_append_singleton, beAssemble_one]

theorem beAssemble_eight :
    beAssemble 64 [a, b, c, d, e, f, g, h] = a ++ b ++ c ++ d ++ e ++ f ++ g ++ h := by
  show beAssemble (8 + 8 + 8 + 8 + 8 + 8 + 8 + 8) ([a] ++ [b] ++ [c] ++ [d] ++ [e] ++ [f] ++ [g] ++ [h]) = _
  iterate 7 rw [beAssemble_append_singleton]
  rw [beAssemble_one]

/-- Bit 63 of eight bytes joined is bit 7 of the first. -/
theorem msb_eight_bytes : (a ++ b ++ c ++ d ++ e ++ f ++ g ++ h).msb = a.getLsbD 7 := by
  iterate 7 rw [BitVec.msb_append, if_neg (by decide)]
  exact BitVec.msb_eq_getLsbD_last a

section fastPattern

variable {bs : List Byte}

theorem fastPattern_eight (hlen : bs.length = 1) : fastPattern 8 false bs = byteAt bs 0 := by
  match bs, hlen with
  | [a], _ => exact beAssemble_one a

theorem fastPattern_sixteen_big (hlen : bs.length = 2) : fastPattern 16 false bs = byteAt bs 0 ++ byteAt bs 1 := by
  match bs, hlen with
  | [a, b], _ => exact beAssemble_two a b

theorem fastPattern_sixteen_little (hlen : bs.length = 2) : fastPattern 16 true bs = byteAt bs 1 ++ byteAt bs 0 := by
  match bs, hlen with
  | [a, b], _ => exact (littleEndianIsBigEndianReversed 16 [a, b]).trans (beAssemble_two b a)

theorem fastPattern_thirtyTwo_big (hlen : bs.length = 4) :
    fastPattern 32 false bs = byteAt bs 0 ++ byteAt bs 1 ++ byteAt bs 2 ++ byteAt bs 3 := by
  match bs, hlen with
  | [a, b, c, d], _ => exact beAssemble_four a b c d

theorem fastPattern_thirtyTwo_little (hlen : bs.length = 4) :
    fastPattern 32 true bs = byteAt bs 3 ++ byteAt bs 2 ++ byteAt bs 1 ++ byteAt bs 0 := by
  match bs, hlen with
  | [a, b, c, d], _ => exact (littleEndianIsBigEndianReversed 32 [a, b, c, d]).trans (beAssemble_four d c b a)

theorem fastPattern_sixtyFour_big (hlen : bs.length = 8) :
    fastPattern 64 false bs = byteAt bs 0 ++ byteAt bs 1 ++ byteAt bs 2 ++ byteAt bs 3 ++
      byteAt bs 4 ++ byteAt bs 5 ++ byteAt bs 6 ++ byteAt bs 7 := by
  match bs, hlen with
  | [a, b, c, d, e, f, g, h], _ => exact beAssemble_eight a b c d e f g h

theorem fastPattern_sixtyFour_little (hlen : bs.length = 8) :
    fastPattern 64 true bs = byteAt bs 7 ++ byteAt bs 6 ++ byteAt bs 5 ++ byteAt bs 4 ++
      byteAt bs 3 ++ byteAt bs 2 ++ byteAt bs 1 ++ byteAt bs 0 := by
  match bs, hlen with
  | [a, b, c, d, e, f, g, h], _ =>
    exact (littleEndianIsBigEndianReversed 64 [a, b, c, d, e, f, g, h]).trans (beAssemble_eight h g f e d c b a)

end fastPattern

end Sys2Proof.Machine

/-! The whole next state of each fast-path instruction over a prompt memory (41_fastpath.md R110 to R113, R116 to R129). -/

namespace Sys2Proof.Machine

variable {s : State} {e : Entry} {i : Instr} {w : Nat} {value : List Byte → Response}

/-- `fastOutcome` in the model's own terms: the failed pre-check, or the read's outcome. -/
theorem fastOutcome_eq (s : State) (e : Entry) (w : Nat) (value : List Byte → Response) :
    fastOutcome s e w value = (precheck e.req w).elim
      (let bs := memRead s.mem s.cfg.addrW (effAddr s.cfg.addrW e.req) (w / 8)
       (s.withMemPort (s.memPort.finish (effAddr s.cfg.addrW e.req) (w / 8) bs)).respond (bs.elim (.fail .busError) value))
      (fun c => s.respond (.fail c)) := by
  unfold fastOutcome
  by_cases hlong : 8 * e.req.len < e.req.offset.toNat + w
  · rw [precheck_eq_bounds_iff.2 hlong]
    exact if_pos hlong
  by_cases hunaligned : e.req.offset.toNat % 8 ≠ 0
  · rw [precheck_eq_unaligned_iff.2 ⟨not_lt.1 hlong, hunaligned⟩]
    exact (if_neg hlong).trans (if_pos hunaligned)
  · rw [precheck_eq_none_iff.2 ⟨not_lt.1 hlong, not_not.1 hunaligned⟩]
    simp only [if_neg hlong, if_neg hunaligned]
    unfold effAddr byteOffset
    cases memRead s.mem s.cfg.addrW ((e.req.base + e.req.offset.toNat / 8) % 2 ^ s.cfg.addrW) (w / 8) <;> rfl

/-- A fast-path instruction gives `fastOutcome` with any description of its value on the W/8 bytes read. -/
theorem exec_fast_outcome (hfast : i.isFast = true) (hhead : s.headIs e) (hnow : s.memPort.answersNow)
    (hvalue : ∀ bs, bs.length = i.width / 8 → fastResponse i.width i.signed i.little bs = value bs) :
    exec i s = .next (fastOutcome s e i.width value) := by
  rw [fastOutcome_eq]
  cases hpre : precheck e.req i.width with
  | some c => exact exec_precheck_some hhead.1 hpre
  | none =>
    rw [exec_fast_of_load hfast hhead.1 hpre (loadBytes_now _ _ hnow), settle_undisturbed hhead.2]
    cases hread : memRead s.mem s.cfg.addrW (effAddr s.cfg.addrW e.req) (i.width / 8) with
    | none => rfl
    | some bs => simp only [readResponse, Option.elim_some, Option.elim_none, hvalue bs (memRead_length hread)]

/-- Below 64 bits the value is the extension of the pattern read. -/
theorem exec_fast_outcome_narrow (hfast : i.isFast = true) (hw : i.width ≠ 64) (hhead : s.headIs e)
    (hnow : s.memPort.answersNow) {pattern : List Byte → BitVec i.width}
    (hpattern : ∀ bs, bs.length = i.width / 8 → fastPattern i.width i.little bs = pattern bs) :
    exec i s = .next (fastOutcome s e i.width fun bs => .ok (extend64 i.signed (pattern bs)) i.signed) :=
  exec_fast_outcome hfast hhead hnow fun bs hlen => by
    rw [fastResponse_eq, if_neg fun h => hw h.1, hpattern bs hlen]

/-- Settles O14: one byte, extended; the LE bit of the word plays no part in the meaning. -/
theorem extractEightBits : Obligations.ExtractEightBits := by
  refine ⟨rfl, rfl, rfl, rfl, fun s e le hhead hnow => ⟨?_, ?_⟩⟩
  · exact exec_fast_outcome_narrow (i := .ext8u false) rfl (by decide) hhead hnow fun _ => fastPattern_eight
  · exact exec_fast_outcome_narrow (i := .ext8s false) rfl (by decide) hhead hnow fun _ => fastPattern_eight

/-- Settles O15: two bytes joined in the instruction's byte order, and extended. -/
theorem extractSixteenBits : Obligations.ExtractSixteenBits := by
  refine ⟨rfl, rfl, rfl, rfl, fun s e hhead hnow => ⟨?_, ?_, ?_, ?_⟩⟩
  · exact exec_fast_outcome_narrow (i := .ext16ub) rfl (by decide) hhead hnow fun _ => fastPattern_sixteen_big
  · exact exec_fast_outcome_narrow (i := .ext16ul) rfl (by decide) hhead hnow fun _ => fastPattern_sixteen_little
  · exact exec_fast_outcome_narrow (i := .ext16sb) rfl (by decide) hhead hnow fun _ => fastPattern_sixteen_big
  · exact exec_fast_outcome_narrow (i := .ext16sl) rfl (by decide) hhead hnow fun _ => fastPattern_sixteen_little

/-- Settles O16: four bytes joined in the instruction's byte order, and extended. -/
theorem extractThirtyTwoBits : Obligations.ExtractThirtyTwoBits := by
  refine ⟨rfl, rfl, rfl, rfl, fun s e hhead hnow => ⟨?_, ?_, ?_, ?_⟩⟩
  · exact exec_fast_outcome_narrow (i := .ext32ub) rfl (by decide) hhead hnow fun _ => fastPattern_thirtyTwo_big
  · exact exec_fast_outcome_narrow (i := .ext32ul) rfl (by decide) hhead hnow fun _ => fastPattern_thirtyTwo_little
  · exact exec_fast_outcome_narrow (i := .ext32sb) rfl (by decide) hhead hnow fun _ => fastPattern_thirtyTwo_big
  · exact exec_fast_outcome_narrow (i := .ext32sl) rfl (by decide) hhead hnow fun _ => fastPattern_thirtyTwo_little

/-- An unsigned 64-bit value is the pattern read. -/
theorem fastResponse_64_unsigned_of_pattern {le : Bool} {bs : List Byte} {raw : Value}
    (hraw : fastPattern 64 le bs = raw) : fastResponse 64 false le bs = .ok raw false := by
  rw [fastResponse_eq, hraw, extend64_eq_self]
  exact if_neg nofun

/-- A signed 64-bit value is the pattern read, unless its bit 63 is set. -/
theorem fastResponse_64_signed_of_pattern {le top : Bool} {bs : List Byte} {raw : Value}
    (hraw : fastPattern 64 le bs = raw) (htop : raw.msb = top) :
    fastResponse 64 true le bs = if top then .fail .sign64 else .ok raw true := by
  rw [fastResponse_eq, hraw, extend64_eq_self, htop]
  cases top <;> rfl

/-- Settles O17: eight bytes joined in the instruction's byte order; bit 63 is the top bit of the byte that comes first in it. -/
theorem extractSixtyFourBits : Obligations.ExtractSixtyFourBits := by
  refine ⟨rfl, rfl, rfl, rfl, fun s e hhead hnow => ⟨?_, ?_, ?_, ?_⟩⟩
  · exact exec_fast_outcome (i := .ext64ub) rfl hhead hnow fun _ hlen =>
      fastResponse_64_unsigned_of_pattern (fastPattern_sixtyFour_big hlen)
  · exact exec_fast_outcome (i := .ext64ul) rfl hhead hnow fun _ hlen =>
      fastResponse_64_unsigned_of_pattern (fastPattern_sixtyFour_little hlen)
  · exact exec_fast_outcome (i := .ext64sb) rfl hhead hnow fun _ hlen =>
      fastResponse_64_signed_of_pattern (fastPattern_sixtyFour_big hlen) (msb_eight_bytes ..)
  · exact exec_fast_outcome (i := .ext64sl) rfl hhead hnow fun _ hlen =>
      fastResponse_64_signed_of_pattern (fastPattern_sixtyFour_little hlen) (msb_eight_bytes ..)

end Sys2Proof.Machine

/-! The bits of an extended pattern, and the bytes that a value re-encodes to (00_scope.md R9, 41_fastpath.md R114, R130). -/

namespace Sys2Proof.Machine

variable {s t : State} {e : Entry} {i : Instr} {w : Nat} {bs : List Byte}

/-- Over a prompt memory, an OK response of the fast path is the extension of the pattern of the bytes read. -/
theorem exec_fast_ok (hfast : i.isFast = true) (hhead : s.headIs e) (hnow : s.memPort.answersNow)
    (hexec : exec i s = .next t) (hok : t.rsp.data.ok = true) :
    ∃ bs, memRead s.mem s.cfg.addrW (effAddr s.cfg.addrW e.req) (i.width / 8) = some bs ∧
      t.rsp.data.value = extend64 i.signed (fastPattern i.width i.little bs) := by
  cases hpre : precheck e.req i.width with
  | some c =>
    cases (exec_precheck_some hhead.1 hpre).symm.trans hexec
    cases hok
  | none =>
    obtain ⟨p, hstep⟩ := exec_fast_now hfast hhead hnow hpre
    cases hstep.symm.trans hexec
    cases hread : memRead s.mem s.cfg.addrW (effAddr s.cfg.addrW e.req) (i.width / 8) with
    | none =>
      rw [hread] at hok
      cases hok
    | some bs =>
      have hresponse : readResponse i (some bs) = fastResponse i.width i.signed i.little bs := rfl
      rw [hread, hresponse, fastResponse_eq] at hok
      rw [hresponse, fastResponse_eq]
      refine ⟨bs, rfl, ?_⟩
      split_ifs at hok ⊢
      · cases hok
      · rfl

/-- Below the width an extension has the pattern's bits, above it copies of the sign bit or zeros. -/
theorem getLsbD_extend64 (sgn : Bool) (v : BitVec w) {j : Nat} (hj : j < 64) :
    (extend64 sgn v).getLsbD j = if j < w then v.getLsbD j else sgn && v.msb := by
  cases sgn with
  | true => exact (BitVec.getLsbD_signExtend v).trans (by simp [hj])
  | false =>
    by_cases hw : j < w
    · simp [extend64, zext64, hj, hw]
    · simp [extend64, zext64, hw, BitVec.getLsbD_of_ge v j (not_lt.1 hw)]

/-- Settles O20: both values extend one pattern, so they differ only where the extension does. -/
theorem signedAndUnsignedAgreeBelowTheWidth : Obligations.SignedAndUnsignedAgreeBelowTheWidth := by
  intro u v s t t' e hu hv husgn hvsgn hwidth hlittle hhead hnow hexec hexec' hok hok'
  obtain ⟨bs, hread, hvalue⟩ := exec_fast_ok hu hhead hnow hexec hok
  obtain ⟨bs', hread', hvalue'⟩ := exec_fast_ok hv hhead hnow hexec' hok'
  rw [← hwidth] at hread' hvalue'
  obtain rfl : bs = bs' := Option.some_inj.1 (hread.symm.trans hread')
  rw [husgn] at hvalue
  rw [hvsgn, ← hlittle] at hvalue'
  have hw : 0 < u.width ∧ u.width ≤ 64 := by rcases Instr.width_of_isFast hu with h | h | h | h <;> omega
  rw [hvalue, hvalue']
  refine ⟨fun j hj => ?_, fun j hlow hj => ⟨?_, ?_⟩⟩
  · rw [getLsbD_extend64 _ _ (by omega), getLsbD_extend64 _ _ (by omega), if_pos hj, if_pos hj]
  · rw [getLsbD_extend64 _ _ hj, if_neg (by omega), Bool.false_and]
  · rw [getLsbD_extend64 _ _ hj, getLsbD_extend64 _ _ (by omega), if_neg (by omega), if_pos (by omega),
      Bool.true_and, BitVec.msb_eq_getLsbD_last]

/-- Bit `8 j + k` of the little-endian number is bit `k` of byte `j`. -/
theorem leNat_testBit (bs : List Byte) {j k : Nat} (hj : j < bs.length) (hk : k < 8) :
    (leNat bs).testBit (8 * j + k) = bs[j].getLsbD k := by
  induction bs generalizing j with
  | nil => cases hj
  | cons b bs ih =>
    have hbit := Nat.testBit_two_pow_mul_add (leNat bs) b.isLt (8 * j + k)
    rw [leNat, Nat.add_comm]
    refine hbit.trans ?_
    cases j with
    | zero => simp [hk, BitVec.testBit_toNat]
    | succ j =>
      rw [if_neg (by omega), show 8 * (j + 1) + k - 8 = 8 * j + k by omega]
      exact ih (by simpa using hj)

/-- Re-encoding in little-endian order undoes the little-endian pattern and its extension. -/
theorem littleEndianBytes_extend64 (sgn : Bool) (hlen : 8 * bs.length = w) (hw : w ≤ 64) :
    littleEndianBytes bs.length (extend64 sgn (leAssemble w bs)) = bs := by
  refine List.ext_getElem (by simp [littleEndianBytes]) fun j _ hj => BitVec.eq_of_getLsbD_eq fun k hk => ?_
  have hbit : 8 * j + k < w := by omega
  simp only [littleEndianBytes, List.getElem_map, List.getElem_range, BitVec.getLsbD_extractLsb',
    getLsbD_extend64 sgn _ (hbit.trans_le hw), leAssemble, BitVec.getLsbD_ofNat, leNat_testBit bs hj hk, hbit, hk,
    decide_true, Bool.true_and, if_true]

theorem bigEndianBytes_eq_reverse (k : Nat) (v : Value) : bigEndianBytes k v = (littleEndianBytes k v).reverse := by
  refine List.ext_getElem (by simp [bigEndianBytes, littleEndianBytes]) fun j _ _ => ?_
  simp [bigEndianBytes, littleEndianBytes]

/-- Re-encoding in big-endian order undoes the big-endian pattern and its extension. -/
theorem bigEndianBytes_extend64 (sgn : Bool) (hlen : 8 * bs.length = w) (hw : w ≤ 64) :
    bigEndianBytes bs.length (extend64 sgn (beAssemble w bs)) = bs := by
  have hpattern : beAssemble w bs = leAssemble w bs.reverse := by
    rw [littleEndianIsBigEndianReversed, List.reverse_reverse]
  have hlittle := littleEndianBytes_extend64 (bs := bs.reverse) sgn (by simpa using hlen) hw
  rw [List.length_reverse] at hlittle
  rw [bigEndianBytes_eq_reverse, hpattern, hlittle, List.reverse_reverse]

/-- Settles O22: the value extends the pattern of the bytes read, and re-encoding undoes both. -/
theorem reencodingAValueGivesTheBytesBack : Obligations.ReencodingAValueGivesTheBytesBack := by
  intro i s t e hfast hhead hnow hexec hok _
  obtain ⟨bs, hread, hvalue⟩ := exec_fast_ok hfast hhead hnow hexec hok
  have hlen := memRead_length hread
  have hw : 8 * bs.length = i.width ∧ i.width ≤ 64 := by
    rcases Instr.width_of_isFast hfast with h | h | h | h <;> omega
  refine ⟨bs, hread, ?_⟩
  rw [hvalue, ← hlen, fastPattern]
  split_ifs
  · exact littleEndianBytes_extend64 _ hw.1 hw.2
  · exact bigEndianBytes_extend64 _ hw.1 hw.2

end Sys2Proof.Machine

/-! What a fast-path response can depend on, and what it can be when the memory or another agent interferes (20_memory.md R66,
41_fastpath.md R113, R131). -/

namespace Sys2Proof.Machine

variable {s t : State} {i j : Instr} {w : Nat}

/-- The byte order of a one-byte read makes no difference (R77, R131). -/
theorem fastResponse_eight (sgn le le' : Bool) : fastResponse 8 sgn le = fastResponse 8 sgn le' := by
  funext bs
  simp only [fastResponse, true_or, if_true]

/-- The answer to a read's outcome is a function of the width, the sign and, above one byte, the byte order. -/
theorem readResponse_congr (hfast : i.isFast = true) (hwidth : i.width = j.width) (hsigned : i.signed = j.signed)
    (hlittle : 8 < i.width → i.little = j.little) : readResponse i = readResponse j := by
  have hstages : fastResponse i.width i.signed i.little = fastResponse j.width j.signed j.little := by
    rw [← hwidth, ← hsigned]
    by_cases hw : i.width = 8
    · rw [hw]
      exact fastResponse_eight ..
    · rw [hlittle (by rcases Instr.width_of_isFast hfast with h | h | h | h <;> omega)]
  unfold readResponse
  rw [hstages]

/-- Settles O24: each response is `readResponse` of its own read. -/
theorem fastResponseDependsOnlyOnTheBytesRead : Obligations.FastResponseDependsOnlyOnTheBytesRead := by
  intro i j s s' e e' hi hj hwidth hsigned hlittle hhead hhead' hnow hnow' hpre hpre' hbytes
  obtain ⟨p, hexec⟩ := exec_fast_now hi hhead hnow hpre
  obtain ⟨p', hexec'⟩ := exec_fast_now hj hhead' hnow' (hwidth ▸ hpre')
  rw [← hwidth, ← hbytes, ← readResponse_congr hi hwidth hsigned hlittle] at hexec'
  exact ⟨_, _, hexec, hexec', rfl⟩

/-- What the four stages answer is within the bounds of R66: a disturbed request can get no more. -/
theorem fastResponse_bounded (w : Nat) (sgn le : Bool) (bs : List Byte) : (fastResponse w sgn le bs).data.Bounded w sgn := by
  rw [fastResponse_eq]
  split_ifs with hsign
  · simp [Response.data, RspData.Bounded, Cause.code]
  · refine ⟨.inl rfl, iff_of_true rfl rfl, fun _ => ⟨rfl, fastPattern w le bs, rfl, ?_⟩⟩
    rintro rfl rfl
    have htop : (fastPattern 64 le bs).msb = false := by simpa using hsign
    exact (congrArg (BitVec.getLsbD · 63) (extend64_eq_self true _)).trans ((BitVec.msb_eq_getLsbD_last _).symm.trans htop)

/-- A read that waits touches no response register. -/
theorem loadBytes_wait_rsp {a k : Nat} (h : loadBytes s a k = .wait t) : t.rsp = s.rsp := by
  obtain ⟨-, ⟨-, rfl⟩ | ⟨-, -, rfl⟩ | ⟨-, -, -, rfl⟩⟩ := loadBytes_wait h <;> rfl

/-- A settled response is within the bounds of R66 if the path's own is. -/
theorem settle_bounded {e : Entry} {sgn : Bool} {r : Response} (h : r.data.Bounded w sgn) :
    (s.settle e w sgn r).rsp.data.Bounded w sgn := by
  rcases settle_cases s e w sgn r with ⟨-, hs⟩ | ⟨-, hs⟩ <;> rw [hs]
  · exact h
  · exact disturbedResponse_bounded w sgn s.freeCount

/-- Whatever the memory answers, a fast-path instruction leaves the response port, fails a pre-check, or answers within the bounds
of R66. -/
theorem exec_fast_response (hfast : i.isFast = true) (hexec : exec i s = .next t) :
    t.rsp = s.rsp ∨ (∃ c, t.rsp.data = (Response.fail c).data) ∨ t.rsp.data.Bounded i.width i.signed := by
  obtain ⟨-, rfl⟩ | ⟨e, rest, -, ⟨c, -, rfl⟩ | ⟨-, hwait | ⟨s', -, rfl⟩ | ⟨bs, s', -, rfl⟩⟩⟩ :=
    fastPath_cases ((exec_fast hfast s).symm.trans hexec)
  · exact .inl rfl
  · exact .inr (.inl ⟨c, rfl⟩)
  · exact .inl (loadBytes_wait_rsp hwait)
  · exact .inr (.inr (settle_bounded (by simp [Response.data, RspData.Bounded, Cause.code])))
  · exact .inr (.inr (settle_bounded (fastResponse_bounded ..)))

/-- Settles O21: a value that has come on the port is within the bounds of R66, which keep bit 63 clear. -/
theorem signedSixtyFourBitResultsAreNonNegative : Obligations.SignedSixtyFourBitResultsAreNonNegative := by
  intro i s t e hi _ hidle hexec hvalid hok
  obtain ⟨hfast, hwidth, hsigned⟩ : i.isFast = true ∧ i.width = 64 ∧ i.signed = true := by
    rcases hi with rfl | rfl <;> exact ⟨rfl, rfl, rfl⟩
  obtain hsame | ⟨c, hfail⟩ | ⟨-, -, hvalue⟩ := exec_fast_response hfast hexec
  · simp [hsame, hidle] at hvalid
  · simp [hfail, Response.data] at hok
  · obtain ⟨hsgn, -, -, htop⟩ := hvalue hok
    exact ⟨hsgn.trans hsigned, BitVec.toInt_nonneg_of_msb_false ((BitVec.msb_eq_getLsbD_last _).trans (htop hwidth hsigned))⟩

end Sys2Proof.Machine

/-! The generic path of a request: its word and line, its whole next state with a prompt decoder, and a late answer (42_generic.md R150
to R152). -/

namespace Sys2Proof.Machine

variable {s : State} {e : Entry}

/-- The assembler takes every in-range line of a width of EXTG (R80). -/
theorem assemble_extg_of_inRange {addrW base len off : Nat} {w : BitVec 7} (sgn le : Bool) (hw : genericWidth w = true)
    (hbase : base < 2 ^ addrW) (hlen : len < 2 ^ addrW) (hoff : off < 2 ^ 64) :
    assemble addrW (.extg w.toNat sgn le base len off) =
      some { base := base, len := len, offset := BitVec.ofNat 64 off, ctrl := ctrlOf w sgn le } := by
  have hwidth : BitVec.ofNat 7 w.toNat = w := by simp
  rw [assemble, hwidth, if_pos ⟨w.isLt, hw⟩]
  exact buildRequest_of_inRange _ hbase hlen hoff

/-- The three ways the pre-checks of a legal request can go, in the order of R96. -/
theorem precheck_elim {α : Type} (r : Request) (w : Nat) (passed : α) (failed : Cause → α) :
    (precheck r w).elim passed failed =
      if 8 * r.len < r.offset.toNat + w then failed .bounds
      else if r.offset.toNat % 8 ≠ 0 then failed .unaligned
      else passed := by
  split_ifs with hlong hunaligned
  · rw [precheck_eq_bounds_iff.2 hlong, Option.elim_some]
  · rw [precheck_eq_unaligned_iff.2 ⟨not_lt.1 hlong, hunaligned⟩, Option.elim_some]
  · rw [precheck_eq_none_iff.2 ⟨not_lt.1 hlong, not_not.1 hunaligned⟩, Option.elim_none]

/-- `genericOutcome` in the model's own terms: the failed pre-check, or the decoder's answer. -/
theorem genericOutcome_eq (s : State) (e : Entry) (w : BitVec 7) (sgn le : Bool) :
    genericOutcome s e w sgn le = (precheck e.req w.toNat).elim
      (let g := genericRequest s.cfg.addrW e.req w sgn le
       let v := genericAnswer s.gen.unit s.mem s.cfg.addrW g
       (s.withGen (s.gen.finish g v)).respond (decoderResponse sgn v))
      (fun c => s.respond (.fail c)) := by
  rw [precheck_elim]
  refine ite_congr rfl (fun _ => rfl) fun _ => ite_congr rfl (fun _ => rfl) fun _ => ?_
  unfold genericRequest effAddr bytesLeft byteOffset
  dsimp only
  generalize genericAnswer _ _ _ _ = v
  cases v with
  | none => rfl
  | some v => rfl

/-- With a prompt decoder, EXTG gives `genericOutcome`. -/
theorem exec_extg_outcome (w : BitVec 7) (sgn le : Bool) (hhead : s.headIs e) (hnow : s.gen.answersNow) :
    exec (.extg w sgn le) s = .next (genericOutcome s e w sgn le) := by
  rw [genericOutcome_eq]
  cases hpre : precheck e.req w.toNat with
  | some c => exact exec_precheck_some hhead.1 hpre
  | none =>
    rw [exec_extg_of_call hhead.1 hpre (genericCall_now _ hnow), settle_undisturbed hhead.2]
    rfl

/-- Settles O30: the word is `ctrlOf` of the width and the flags, and the call ends in the same step. -/
theorem extractThroughTheGenericDecoder : Obligations.ExtractThroughTheGenericDecoder := by
  intro w sgn le hw
  rw [← ctrlOf_eq_or]
  exact ⟨decode_encode (i := .extg w sgn le) hw, fun _ _ _ _ => assemble_extg_of_inRange sgn le hw,
    fun _ _ => exec_extg_outcome w sgn le⟩

/-- Settles O31: the answer that has come ends the call, and `decoderResponse` is its response. -/
theorem genericAnswerPassesThroughUnchanged : Obligations.GenericAnswerPassesThroughUnchanged := by
  rintro w sgn le s e ⟨hq, hundisturbed⟩ hpre hrsp
  rw [exec_extg_of_call hq hpre (genericCall_answered hrsp _), settle_undisturbed hundisturbed]
  cases s.gen.rspOk with
  | true => rfl
  | false => rfl

end Sys2Proof.Machine

/-! What an attached unit answers to a generic request, absence or an extended pattern (42_generic.md R153, R155), and when the engine
can get absence (R160). -/

namespace Sys2Proof.Machine

variable {u : Config.GenericUnit} {m : Memory} {addrW : Nat} {g : GenReq} {bs : List Byte} {v : Value}

/-- How many bytes the range of a generic request spans (R153). -/
abbrev GenReq.span (g : GenReq) : Nat := bytesOf (g.subOff.toNat + g.width.toNat)

/-- The requests that law L1 rejects without a read (R153). -/
def GenReq.OutOfRange (g : GenReq) : Prop := g.width.toNat = 0 ∨ 64 < g.width.toNat ∨ g.avail < g.span

theorem genericAnswer_of_outOfRange (u : Config.GenericUnit) (m : Memory) (addrW : Nat) (h : g.OutOfRange) :
    genericAnswer u m addrW g = none :=
  if_pos h

/-- A request in range is answered from the bytes it spans. -/
theorem genericAnswer_of_inRange (u : Config.GenericUnit) (m : Memory) (addrW : Nat) (h : ¬g.OutOfRange) :
    genericAnswer u m addrW g = (memRead m addrW g.ptr g.span).map fun bs =>
      extend64 g.sgn (unitPattern u (streamBits bs g.subOff.toNat g.width.toNat) g.width.toNat g.le) := by
  refine (if_neg h).trans ?_
  cases memRead m addrW g.ptr g.span <;> rfl

theorem genericAnswer_eq_none_iff (u : Config.GenericUnit) (m : Memory) (addrW : Nat) (g : GenReq) :
    genericAnswer u m addrW g = none ↔ g.OutOfRange ∨ memRead m addrW g.ptr g.span = none := by
  by_cases hrange : g.OutOfRange
  · exact iff_of_true (genericAnswer_of_outOfRange u m addrW hrange) (.inl hrange)
  · rw [genericAnswer_of_inRange u m addrW hrange, Option.map_eq_none_iff, or_iff_right hrange]

/-- Settles O32: the request is out of range, or its answer is that of the read. -/
theorem genericUnitsMeetTheRangeLaw : Obligations.GenericUnitsMeetTheRangeLaw := by
  intro u m addrW g
  rw [genericAnswer_eq_none_iff, GenReq.OutOfRange, or_assoc, or_assoc]
  rfl

/-- A unit's value is its pattern of the bytes read, extended as SGN says. -/
theorem genericAnswer_eq_some (h : genericAnswer u m addrW g = some v) :
    ∃ bs, memRead m addrW g.ptr g.span = some bs ∧
      v = extend64 g.sgn (unitPattern u (streamBits bs g.subOff.toNat g.width.toNat) g.width.toNat g.le) := by
  by_cases hrange : g.OutOfRange
  · rw [genericAnswer_of_outOfRange u m addrW hrange] at h
    cases h
  · rw [genericAnswer_of_inRange u m addrW hrange, Option.map_eq_some_iff] at h
    obtain ⟨bs, hread, rfl⟩ := h
    exact ⟨bs, hread, rfl⟩

/-- The low bits of an extended pattern are the pattern. -/
theorem setWidth_extend64 {w : Nat} (hw : w ≤ 64) (sgn : Bool) (raw : BitVec w) : (extend64 sgn raw).setWidth w = raw := by
  refine BitVec.eq_of_getLsbD_eq fun j hj => ?_
  rw [BitVec.getLsbD_setWidth, getLsbD_extend64 sgn raw (hj.trans_le hw), if_pos hj, decide_eq_true hj, Bool.true_and]

/-- An unsigned extension is below `2^w`. -/
theorem extend64_unsigned_lt {w : Nat} (hw : w ≤ 64) (raw : BitVec w) : (extend64 false raw).toNat < 2 ^ w :=
  (BitVec.toNat_setWidth_of_le hw).trans_lt raw.isLt

/-- A signed extension is the sign extension of its low bits, and in the range of `w` signed bits. -/
theorem extend64_signed_range {w : Nat} (hw : w ≤ 64) (raw : BitVec w) :
    extend64 true raw = ((extend64 true raw).setWidth w).signExtend 64 ∧
      -(2 ^ (w - 1) : Int) ≤ (extend64 true raw).toInt ∧ (extend64 true raw).toInt < 2 ^ (w - 1) := by
  have hint : (extend64 true raw).toInt = raw.toInt := BitVec.toInt_signExtend_of_le hw
  rw [hint, setWidth_extend64 hw]
  exact ⟨rfl, raw.le_toInt, raw.toInt_lt⟩

/-- The low bits of a unit's value are its pattern of the range's bits. -/
theorem genericAnswer_setWidth (hw : g.width.toNat ≤ 64) (hread : memRead m addrW g.ptr g.span = some bs)
    (h : genericAnswer u m addrW g = some v) :
    v.setWidth g.width.toNat = unitPattern u (streamBits bs g.subOff.toNat g.width.toNat) g.width.toNat g.le := by
  obtain ⟨bs', hread', rfl⟩ := genericAnswer_eq_some h
  obtain rfl : bs = bs' := Option.some_inj.1 (hread.symm.trans hread')
  exact setWidth_extend64 hw g.sgn _

/-- Settles O34: a value is an extended pattern, and the pattern is a function of the range's bits, the width and LE. -/
theorem genericUnitsMeetTheExtensionLaw : Obligations.GenericUnitsMeetTheExtensionLaw := by
  constructor
  · intro u m addrW g v hw hv
    obtain ⟨bs, -, rfl⟩ := genericAnswer_eq_some hv
    refine ⟨fun hsgn => ?_, fun hsgn => ?_⟩ <;> rw [hsgn]
    · exact extend64_unsigned_lt hw.le _
    · exact extend64_signed_range hw.le _
  · intro u m m' addrW addrW' g g' bs bs' v v' hw hwidth hle hread hread' hbits hv hv' j hj
    have hlow := genericAnswer_setWidth hw.le hread hv
    have hlow' := genericAnswer_setWidth (hwidth ▸ hw.le) hread' hv'
    rw [← hbits, ← hle, ← hwidth, ← hlow] at hlow'
    simpa [hj] using congrArg (BitVec.getLsbD · j) hlow'.symm

section engine

variable {r : Request} {w : BitVec 7}

/-- A request past its pre-checks has all its bytes within AVAIL. -/
theorem bytesOf_le_bytesLeft {w : Nat} (hpre : precheck r w = none) : bytesOf w ≤ bytesLeft r := by
  obtain ⟨hfits, haligned⟩ := precheck_eq_none_iff.1 hpre
  unfold bytesOf bytesLeft byteOffset
  omega

/-- The engine's own request starts at a byte boundary (R151). -/
theorem genericRequest_span (addrW : Nat) (r : Request) (w : BitVec 7) (sgn le : Bool) :
    (genericRequest addrW r w sgn le).span = bytesOf w.toNat :=
  congrArg bytesOf (Nat.zero_add _)

/-- A generic width and the pre-checks keep the engine's own request in range (R160). -/
theorem genericRequest_inRange (addrW : Nat) (sgn le : Bool) (hw : genericWidth w = true)
    (hpre : precheck r w.toNat = none) : ¬(genericRequest addrW r w sgn le).OutOfRange := by
  obtain ⟨hpos, hmax, -⟩ := (genericWidth_iff w).1 hw
  have havail := bytesOf_le_bytesLeft hpre
  rintro (hzero | hover | hshort)
  · exact Nat.ne_of_gt hpos hzero
  · exact absurd (hover.trans_le hmax) (by decide)
  · rw [genericRequest_span] at hshort
    exact havail.not_gt hshort

/-- What the range law leaves of the engine's own request is the read error. -/
theorem genericAnswer_genericRequest_eq_none_iff (u : Config.GenericUnit) (m : Memory) (addrW : Nat) (sgn le : Bool)
    (hw : genericWidth w = true) (hpre : precheck r w.toNat = none) :
    genericAnswer u m addrW (genericRequest addrW r w sgn le) = none ↔
      memRead m addrW (effAddr addrW r) (bytesOf w.toNat) = none := by
  rw [genericAnswer_eq_none_iff, or_iff_right (genericRequest_inRange addrW sgn le hw hpre), genericRequest_span]
  rfl

theorem decoderResponse_cause_iff (sgn : Bool) (v : Option Value) : (decoderResponse sgn v).data.cause = 4 ↔ v = none := by
  cases v with
  | none => exact iff_of_true rfl rfl
  | some v => exact iff_of_false (by simp [decoderResponse, Response.data]) nofun

/-- Settles O36: the engine's AVAIL covers its range, so only the read can fail. -/
theorem genericUnitsFailOnlyOnAReadError : Obligations.GenericUnitsFailOnlyOnAReadError := by
  intro u m addrW r w sgn le hw hpre
  refine ⟨bytesOf_le_bytesLeft hpre, genericAnswer_genericRequest_eq_none_iff u m addrW sgn le hw hpre, ?_⟩
  rintro s t e rfl hhead hnow rfl rfl hexec
  obtain ⟨p, hstep⟩ := exec_extg_now sgn le hhead hnow hpre
  cases hstep.symm.trans hexec
  exact (decoderResponse_cause_iff sgn _).trans (genericAnswer_genericRequest_eq_none_iff _ _ _ sgn le hw hpre)

end engine

end Sys2Proof.Machine

/-! Ranges of whole bytes: their stream bits, packed, are the bytes read, and either unit joins those as the fast path does (42_generic.md
R154, R157, R158, R161). -/

namespace Sys2Proof.Machine

variable {bs : List Byte} {n q : Nat}

/-- The number of a list of bits has no more bits than the list. -/
theorem bitsNat_lt (bits : List Bool) : bitsNat bits < 2 ^ bits.length := by
  induction bits with
  | nil => decide
  | cons b bits ih =>
    have hb : b.toNat * 2 ^ bits.length ≤ 1 * 2 ^ bits.length := Nat.mul_le_mul_right _ b.toNat_le
    rw [bitsNat, List.length_cons, pow_succ]
    omega

theorem bitsNat_append (xs ys : List Bool) : bitsNat (xs ++ ys) = bitsNat xs * 2 ^ ys.length + bitsNat ys := by
  induction xs with
  | nil => simp [bitsNat]
  | cons x xs ih =>
    simp only [List.cons_append, bitsNat, ih, List.length_append, pow_add]
    ring

/-- The low `n` bits of a number, most significant first, denote the number modulo `2^n`. -/
theorem bitsNat_testBit (x n : Nat) : bitsNat ((List.range n).map fun j => x.testBit (n - 1 - j)) = x % 2 ^ n := by
  induction n with
  | zero => simp [bitsNat, Nat.mod_one]
  | succ n ih =>
    have htail : (List.range n).map ((fun j => x.testBit (n + 1 - 1 - j)) ∘ Nat.succ) =
        (List.range n).map fun j => x.testBit (n - 1 - j) := by
      refine List.map_congr_left fun j _ => ?_
      simp only [Function.comp_apply]
      congr 1
      omega
    rw [List.range_succ_eq_map, List.map_cons, List.map_map, htail, bitsNat, ih, Nat.mod_pow_succ, ← Nat.toNat_testBit]
    simp [Nat.mul_comm, Nat.add_comm]

theorem packBytes_length (q : Nat) (bits : List Bool) : (packBytes q bits).length = q := by
  induction q generalizing bits with
  | zero => rfl
  | succ q ih => rw [packBytes, List.length_cons, ih]

/-- A packed byte denotes its group of eight bits. -/
theorem toNat_packed_byte (bits : List Bool) : (BitVec.ofNat 8 (bitsNat (bits.take 8))).toNat = bitsNat (bits.take 8) :=
  Nat.mod_eq_of_lt ((bitsNat_lt _).trans_le (Nat.pow_le_pow_right two_pos (List.length_take_le ..)))

/-- The little-endian stream of `GenericRef` is the little-endian number of the packed bytes. -/
theorem leNat_packBytes {bits : List Bool} (hlen : bits.length = 8 * q) : leNat (packBytes q bits) = leStream q bits := by
  induction q generalizing bits with
  | zero =>
    obtain rfl : bits = [] := List.length_eq_zero_iff.1 hlen
    rfl
  | succ q ih => rw [packBytes, leNat, leStream, toNat_packed_byte, ih (by rw [List.length_drop]; omega)]

/-- The big-endian number of the packed bytes is that of the bits as they come. -/
theorem beNat_packBytes {bits : List Bool} (hlen : bits.length = 8 * q) : beNat (packBytes q bits) = bitsNat bits := by
  induction q generalizing bits with
  | zero =>
    obtain rfl : bits = [] := List.length_eq_zero_iff.1 hlen
    rfl
  | succ q ih =>
    have hdrop : (bits.drop 8).length = 8 * q := by rw [List.length_drop]; omega
    have hpow : 256 ^ q = 2 ^ (8 * q) := pow_mul 2 8 q ▸ rfl
    rw [packBytes, beNat, toNat_packed_byte, ih hdrop, packBytes_length, hpow, ← hdrop, ← bitsNat_append,
      List.take_append_drop]

/-- Law L2 fixes the conforming unit's pattern on whole bytes: the packed bytes, joined in the byte order asked for (R154). -/
theorem conformingPattern_of_wholeBytes (bits : List Bool) (le : Bool) (hn : n % 8 = 0) (hmax : n < 64) :
    conformingPattern bits n le =
      if le then leAssemble n (packBytes (n / 8) bits) else beAssemble n (packBytes (n / 8) bits) :=
  if_pos ⟨hn, hmax⟩

/-- Settles O35: on whole bytes either byte order of `GenericRef` denotes the number of the packed bytes. -/
theorem referenceDecoderAgreesOnWholeBytes : Obligations.ReferenceDecoderAgreesOnWholeBytes := by
  intro bits n le hlen hn hmax
  have hbytes : bits.length = 8 * (n / 8) := by omega
  rw [conformingPattern_of_wholeBytes bits le hn hmax]
  cases le with
  | true => exact congrArg (BitVec.ofNat n) (leNat_packBytes hbytes).symm
  | false => exact congrArg (BitVec.ofNat n) (beNat_packBytes hbytes).symm

/-- The stream of a list of bytes starts with the bits of its first byte, most significant first (R158). -/
theorem streamBits_cons (b : Byte) (bs : List Byte) (n : Nat) :
    streamBits (b :: bs) 0 (8 + n) = (List.range 8).map (fun j => b.toNat.testBit (8 - 1 - j)) ++ streamBits bs 0 n := by
  unfold streamBits
  rw [List.range_add, List.map_append, List.map_map]
  refine congrArg₂ (· ++ ·) (List.map_congr_left fun j hj => ?_) (List.map_congr_left fun j _ => ?_)
  · have hj : j < 8 := List.mem_range.1 hj
    simp [streamBit, Nat.div_eq_of_lt hj, Nat.mod_eq_of_lt hj, BitVec.testBit_toNat]
  · simp [streamBit, Nat.add_div_left]

/-- Packing the stream of a list of bytes gives the bytes back. -/
theorem packBytes_streamBits (bs : List Byte) : packBytes bs.length (streamBits bs 0 (8 * bs.length)) = bs := by
  induction bs with
  | nil => rfl
  | cons b bs ih =>
    have hbyte : BitVec.ofNat 8 (bitsNat ((List.range 8).map fun j => b.toNat.testBit (8 - 1 - j))) = b := by
      rw [bitsNat_testBit, Nat.mod_eq_of_lt b.isLt, BitVec.ofNat_toNat, BitVec.setWidth_eq]
    rw [List.length_cons, Nat.mul_add_one, Nat.add_comm (8 * bs.length), streamBits_cons, packBytes,
      List.take_left' (by simp), List.drop_left' (by simp), hbyte, ih]

/-- Either unit joins the bytes of a whole-byte range in the byte order asked for (R154). -/
theorem unitPattern_of_wholeBytes (u : Config.GenericUnit) (le : Bool) (hlen : 8 * bs.length = n) (hmax : n < 64) :
    unitPattern u (streamBits bs 0 n) n le = if le then leAssemble n bs else beAssemble n bs := by
  have hn : n % 8 = 0 := by omega
  have hpack : packBytes (n / 8) (streamBits bs 0 n) = bs := by
    subst hlen
    rw [Nat.mul_div_cancel_left _ (by decide), packBytes_streamBits]
  have hconforming : conformingPattern (streamBits bs 0 n) n le = if le then leAssemble n bs else beAssemble n bs := by
    rw [conformingPattern_of_wholeBytes _ le hn hmax, hpack]
  cases u with
  | conforming => exact hconforming
  | reference => exact (referenceDecoderAgreesOnWholeBytes _ n le (by simp [streamBits]) hn hmax).trans hconforming

/-- Settles O33: the range spans exactly the bytes read, and either unit joins those. -/
theorem genericUnitsMeetTheByteMultipleLaw : Obligations.GenericUnitsMeetTheByteMultipleLaw := by
  intro u m addrW g bs hsub hn hpos hmax havail hread
  have hsub : g.subOff.toNat = 0 := by rw [hsub]; rfl
  have hspan : g.span = g.width.toNat / 8 := by
    unfold GenReq.span bytesOf
    omega
  have hrange : ¬g.OutOfRange := by
    unfold GenReq.OutOfRange
    omega
  have hlen := memRead_length hread
  rw [genericAnswer_of_inRange u m addrW hrange, hspan, hread, Option.map_some, hsub,
    unitPattern_of_wholeBytes u g.le (by omega) hmax]
  rfl

/-- A whole-byte request of the engine, above 8 and below 64 bits, gets the response of the fast-path stages (R161). -/
theorem decoderResponse_of_wholeBytes {m : Memory} {addrW : Nat} {r : Request} {w : BitVec 7} (u : Config.GenericUnit)
    (sgn le : Bool) (hn : w.toNat % 8 = 0) (hmin : 8 < w.toNat) (hmax : w.toNat < 64) (hpre : precheck r w.toNat = none)
    (hread : memRead m addrW (effAddr addrW r) (w.toNat / 8) = some bs) :
    decoderResponse sgn (genericAnswer u m addrW (genericRequest addrW r w sgn le)) = fastResponse w.toNat sgn le bs := by
  have havail : w.toNat / 8 ≤ bytesLeft r :=
    (Nat.div_le_div_right (Nat.le_add_right _ 7)).trans (bytesOf_le_bytesLeft hpre)
  have hpattern : fastPattern w.toNat le bs = if le then leAssemble w.toNat bs else beAssemble w.toNat bs := by
    simp [fastPattern, hmin.ne']
  have hanswer : genericAnswer u m addrW (genericRequest addrW r w sgn le) =
      some (extend64 sgn (fastPattern w.toNat le bs)) := by
    rw [hpattern]
    exact genericUnitsMeetTheByteMultipleLaw u m addrW (genericRequest addrW r w sgn le) bs rfl hn (pos_of_gt hmin) hmax
      havail hread
  rw [hanswer, fastResponse_eq, if_neg fun h => hmax.ne h.1]
  rfl

/-- Settles O37: the four widths are whole bytes between 8 and 64 bits. -/
theorem wholeByteGenericWidthsAgreeWithTheFastPath : Obligations.WholeByteGenericWidthsAgreeWithTheFastPath := by
  intro w sgn le s e bs hw hhead hnow hpre hread
  have hbytes : w.toNat % 8 = 0 ∧ 8 < w.toNat ∧ w.toNat < 64 := by rcases hw with rfl | rfl | rfl | rfl <;> decide
  obtain ⟨hn, hmin, hmax⟩ := hbytes
  obtain ⟨p, hexec⟩ := exec_extg_now sgn le hhead hnow hpre
  rw [decoderResponse_of_wholeBytes _ sgn le hn hmin hmax hpre hread] at hexec
  exact ⟨_, hexec, rfl, rfl⟩

end Sys2Proof.Machine

/-! No step of a reachable machine stops (60_exceptions.md R170, R174): every failure of a request is an ordinary response, and the
one stop of the model is the delivery of the reserved cause (93_implementation_defined.md I12). -/

namespace Sys2Proof.Machine

theorem exec_next (i : Instr) (s : State) : ∃ t, exec i s = .next t := by
  cases hfast : i.isFast with
  | true =>
    rw [exec_fast hfast]
    exact fastPath_next ..
  | false =>
    obtain ⟨w, sgn, le, rfl⟩ := Instr.eq_extg_of_not_isFast hfast
    exact execExtg_next s w sgn le

/-- An illegal word is answered (R76), and every instruction has a meaning (R95). -/
theorem runHead_next (s : State) (e : Entry) : ∃ t, runHead s e = .next t := by
  unfold runHead
  split
  · exact ⟨_, rfl⟩
  · exact exec_next _ s

/-- Only a delivery can stop the engine's turn. -/
theorem engineTurn_next_or_fault (s : State) :
    (∃ t, engineTurn s = .next t) ∨ (s.rsp.data.cause = 7 ∧ engineTurn s = .fault .reservedCause) := by
  obtain ⟨-, ht⟩ | ⟨-, ⟨-, -, ht⟩ | ⟨-, ⟨-, ht⟩ | ⟨-, ⟨-, ht⟩ | ⟨-, ⟨-, ht⟩ | ⟨e, rest, -, ht⟩⟩⟩⟩⟩ := engineTurn_cases s
  · exact .inl ⟨_, ht⟩
  · obtain ⟨hcause, hd⟩ | ⟨-, hd⟩ := deliver_cases s
    · exact .inr ⟨hcause, ht.trans hd⟩
    · exact .inl ⟨_, ht.trans hd⟩
  · exact .inl ⟨_, ht⟩
  · exact .inl ⟨_, ht⟩
  · exact .inl ⟨_, ht⟩
  · obtain ⟨t, hrun⟩ := runHead_next s e
    exact .inl ⟨t, ht.trans hrun⟩

/-- Of the inputs only the engine's turn can stop: each of the others writes registers of its own. -/
theorem applyInput_next_or_fault (i : Input) (s : State) :
    (∃ t, applyInput i s = .next t) ∨ (s.rsp.data.cause = 7 ∧ applyInput i s = .fault .reservedCause) := by
  cases i with
  | engineTurn => exact engineTurn_next_or_fault s
  | _ => exact .inl ⟨_, rfl⟩

/-- A step answers a next state, or it delivers the reserved cause. -/
theorem step_next_or_fault (s : State) :
    (∃ t, step s = .next t) ∨ (s.rsp.data.cause = 7 ∧ step s = .fault .reservedCause) := by
  obtain ⟨-, hs⟩ | ⟨i, rest, -, hs⟩ := step_cases s <;> rw [hs]
  · exact engineTurn_next_or_fault s
  · exact applyInput_next_or_fault i (s.withInputs rest)

/-- Settles O52: the invariant's coherent response registers never show the reserved cause. -/
theorem noStepStops : Obligations.NoStepStops := by
  refine ⟨fun s hinv => ?_, fun s r hrefused => ?_, fun s f hfault => ?_⟩
  · obtain ⟨-, hcause, -⟩ := hinv.response_coherent
    exact (step_next_or_fault s).resolve_right fun h => hcause h.1
  · obtain ⟨t, hs⟩ | ⟨-, hs⟩ := step_next_or_fault s <;> cases hrefused.symm.trans hs
  · obtain ⟨t, hs⟩ | ⟨hcause, -⟩ := step_next_or_fault s
    · cases hfault.symm.trans hs
    · exact hcause

end Sys2Proof.Machine

/-! A request whose port has not answered waits, on either path, and the moment of the memory's answer does not show in the response
(20_memory.md R60; 42_generic.md R151; 70_reset_and_hazards.md R199, R200). -/

namespace Sys2Proof.Machine

variable {s s' : State} {e : Entry} {i : Instr}

theorem loadBytes_outstanding (hrsp : s.memPort.rspValid = false) (hwait : s.memPort.waiting = true) (a k : Nat) :
    loadBytes s a k = .wait s := by
  simp [loadBytes, hrsp, hwait]

theorem loadBytes_not_ready (hrsp : s.memPort.rspValid = false) (hwait : s.memPort.waiting = false)
    (hready : s.memPort.reqReady = false) (a k : Nat) :
    loadBytes s a k = .wait (s.withMemPort (s.memPort.drive a k)) := by
  simp [loadBytes, hrsp, hwait, hready]

theorem loadBytes_taken (hrsp : s.memPort.rspValid = false) (hwait : s.memPort.waiting = false)
    (hready : s.memPort.reqReady = true) (hprompt : s.memPort.prompt = false) (a k : Nat) :
    loadBytes s a k = .wait (s.withMemPort (s.memPort.take a k)) := by
  simp [loadBytes, hrsp, hwait, hready, hprompt]

theorem genericCall_outstanding (hrsp : s.gen.rspValid = false) (hwait : s.gen.waiting = true) (g : GenReq) :
    genericCall s g = .wait s := by
  simp [genericCall, hrsp, hwait]

theorem genericCall_not_ready (hrsp : s.gen.rspValid = false) (hwait : s.gen.waiting = false)
    (hready : s.gen.reqReady = false) (g : GenReq) :
    genericCall s g = .wait (s.withGen (s.gen.drive g)) := by
  simp [genericCall, hrsp, hwait, hready]

theorem genericCall_taken (hrsp : s.gen.rspValid = false) (hwait : s.gen.waiting = false)
    (hready : s.gen.reqReady = true) (hprompt : s.gen.prompt = false) (g : GenReq) :
    genericCall s g = .wait (s.withGen (s.gen.take g)) := by
  simp [genericCall, hrsp, hwait, hready, hprompt]

/-- A fast-path request past its pre-checks does no more than its waiting read. -/
theorem exec_fast_of_wait (hfast : i.isFast = true) (hq : s.q.head? = some e) (hpre : precheck e.req i.width = none)
    (hload : loadBytes s (effAddr s.cfg.addrW e.req) (i.width / 8) = .wait s') : exec i s = .next s' := by
  obtain ⟨rest, hq⟩ := List.head?_eq_some_iff.1 hq
  simp only [exec_fast hfast, fastPath, hq, hpre, hload]

/-- A generic request past its pre-checks does no more than its waiting call. -/
theorem exec_extg_of_wait {w : BitVec 7} {sgn le : Bool} (hq : s.q.head? = some e) (hpre : precheck e.req w.toNat = none)
    (hcall : genericCall s (genericRequest s.cfg.addrW e.req w sgn le) = .wait s') : exec (.extg w sgn le) s = .next s' := by
  obtain ⟨rest, hq⟩ := List.head?_eq_some_iff.1 hq
  simp only [exec_extg, execExtg, hq, hpre, hcall]

/-- Settles O26: the three ways in which the load stage waits. -/
theorem fastPathWaitsForTheMemory : Obligations.FastPathWaitsForTheMemory := by
  intro i s e hfast hq hpre hrsp
  refine ⟨fun hwait => ?_, fun hwait hready => ?_, fun hwait hready hprompt => ?_⟩
  · exact exec_fast_of_wait hfast hq hpre (loadBytes_outstanding hrsp hwait _ _)
  · exact exec_fast_of_wait hfast hq hpre (loadBytes_not_ready hrsp hwait hready _ _)
  · exact exec_fast_of_wait hfast hq hpre (loadBytes_taken hrsp hwait hready hprompt _ _)

/-- Settles O29: the three ways in which a call of the decoder waits. -/
theorem genericPathWaitsForTheDecoder : Obligations.GenericPathWaitsForTheDecoder := by
  intro w sgn le s e hq hpre hrsp
  refine ⟨fun hwait => ?_, fun hwait hready => ?_, fun hwait hready hprompt => ?_⟩
  · exact exec_extg_of_wait hq hpre (genericCall_outstanding hrsp hwait _)
  · exact exec_extg_of_wait hq hpre (genericCall_not_ready hrsp hwait hready _)
  · exact exec_extg_of_wait hq hpre (genericCall_taken hrsp hwait hready hprompt _)

/-- The answer registers of the memory channel carry what was read: MEM_RSP_ERR an error, the lanes up to eight bytes (R37). -/
theorem answer_lanes {a k : Nat} (hk : k ≤ 8) {bs : Option (List Byte)} (hlen : ∀ l, bs = some l → l.length = k) :
    (if bs.isNone then none else some (laneBytes (laneData a k bs) k)) = bs := by
  cases bs with
  | none => rfl
  | some l => exact congrArg some (laneBytes_laneData (hlen l rfl) hk)

/-- The answer to a read that the memory has taken ends it with what the memory holds. -/
theorem late_answer_ends_read (s : State) (a : Nat) {k : Nat} (hk : k ≤ 8) :
    ∃ p p', (s.withMemPort (s.memPort.take a k)).memAnswer false = s.withMemPort p ∧
      loadBytes (s.withMemPort p) a k = .done (memRead s.mem s.cfg.addrW a k) (s.withMemPort p') := by
  have hnbytes : (s.memPort.take a k).nbytes.toNat = k := by
    rw [show (s.memPort.take a k).nbytes = BitVec.ofNat 4 k from rfl, BitVec.toNat_ofNat]
    omega
  have hlate : (s.withMemPort (s.memPort.take a k)).lateRead false = memRead s.mem s.cfg.addrW a k :=
    congrArg (memRead s.mem s.cfg.addrW a) hnbytes
  have hanswer : (s.withMemPort (s.memPort.take a k)).memAnswer false = s.withMemPort
      { s.memPort.take a k with
        waiting := false, rspValid := true, rspErr := (memRead s.mem s.cfg.addrW a k).isNone
        rspData := laneData a k (memRead s.mem s.cfg.addrW a k) } := by
    rw [memAnswer_of_waiting rfl, hlate, State.withMemPort_memPort, hnbytes]
    rfl
  exact ⟨_, _, hanswer, (loadBytes_answered rfl a k).trans
    (congrArg (Reply.done · (s.withMemPort _)) (answer_lanes hk fun _ => memRead_length))⟩

/-- Over a memory that answers later, a fast-path request past its pre-checks waits, and the answer completes it from the bytes
read. -/
theorem exec_fast_late (hfast : i.isFast = true) (hhead : s.headIs e) (hpre : precheck e.req i.width = none)
    (hrsp : s.memPort.rspValid = false) (hwait : s.memPort.waiting = false) (hready : s.memPort.reqReady = true)
    (hprompt : s.memPort.prompt = false) :
    ∃ p p', exec i s = .next (s.withMemPort p) ∧
      exec i ((s.withMemPort p).memAnswer false) = .next ((s.withMemPort p').respond
        (readResponse i (memRead s.mem s.cfg.addrW (effAddr s.cfg.addrW e.req) (i.width / 8)))) := by
  obtain ⟨hq, hundisturbed⟩ := hhead
  have hbytes : i.width / 8 ≤ 8 := by rcases Instr.width_of_isFast hfast with hw | hw | hw | hw <;> omega
  obtain ⟨p, p', hanswer, hload⟩ := late_answer_ends_read s (effAddr s.cfg.addrW e.req) hbytes
  refine ⟨_, p', exec_fast_of_wait hfast hq hpre (loadBytes_taken hrsp hwait hready hprompt _ _), ?_⟩
  rw [hanswer, exec_fast_of_load (s := s.withMemPort p) hfast hq hpre hload, settle_undisturbed hundisturbed]

/-- Settles O28: at once or late, the read ends with the same bytes, and the response is made from them. -/
theorem memoryLatencyDoesNotChangeTheResponse : Obligations.MemoryLatencyDoesNotChangeTheResponse := by
  rintro i s e hfast hhead hpre ⟨hready, hprompt, hwait, hrsp⟩
  obtain ⟨_, hnow⟩ := exec_fast_now hfast hhead ⟨hready, hprompt, hwait, hrsp⟩ hpre
  obtain ⟨_, _, htaken, hlate⟩ :=
    exec_fast_late (s := s.withMemPort { s.memPort with prompt := false }) hfast hhead hpre hrsp hwait hready rfl
  exact ⟨_, _, _, hnow, htaken, hlate, rfl, rfl, rfl⟩

end Sys2Proof.Machine

/-! While the requester is not ready the response stays on the port, and the requests in flight stay in order (10_state.md R29;
70_reset_and_hazards.md R197). -/

namespace Sys2Proof.Machine

variable {s t : State}

/-- From `s` to `t` the response on the port is held, none is delivered, and the queue grows at its tail at most. -/
structure HoldsResponse (s t : State) : Prop where
  valid : t.rsp.valid = s.rsp.valid
  data : t.rsp.data = s.rsp.data
  received : t.received = s.received
  queue : ∃ more, t.q.map Entry.req = s.q.map Entry.req ++ more

theorem HoldsResponse.of_same_requests (hvalid : t.rsp.valid = s.rsp.valid) (hdata : t.rsp.data = s.rsp.data)
    (hreceived : t.received = s.received) (hq : t.q.map Entry.req = s.q.map Entry.req) : HoldsResponse s t :=
  ⟨hvalid, hdata, hreceived, [], hq.trans (List.append_nil _).symm⟩

/-- The memory's answer, outstanding or not, touches its own channel alone. -/
theorem memAnswer_eq_withMemPort (s : State) (err : Bool) : ∃ p, s.memAnswer err = s.withMemPort p := by
  cases hwait : s.memPort.waiting with
  | false => exact ⟨s.memPort, memAnswer_of_not_waiting hwait err⟩
  | true => exact ⟨_, memAnswer_of_waiting hwait err⟩

/-- The decoder's answer, outstanding or not, touches its own channel alone. -/
theorem genAnswer_eq_withGen (s : State) (ok : Bool) (v : Value) : ∃ p, s.genAnswer ok v = s.withGen p := by
  cases hwait : s.gen.waiting with
  | false => exact ⟨s.gen, genAnswer_of_not_waiting hwait ok v⟩
  | true => exact ⟨_, genAnswer_of_waiting hwait ok v⟩

/-- With a response held on the port, the engine's turn can only accept a request or drive `req_ready`. -/
theorem engineTurn_holdsResponse (h : engineTurn s = .next t) (hvalid : s.rsp.valid = true) (hready : s.rsp.ready = false) :
    HoldsResponse s t := by
  obtain ⟨-, ht⟩ | ⟨-, ⟨-, hdelivers, -⟩ | ⟨-, ⟨-, ht⟩ | ⟨-, ⟨-, ht⟩ | ⟨hfree, -⟩⟩⟩⟩ := engineTurn_cases s
  · cases ht.symm.trans h
    exact .of_same_requests rfl rfl rfl rfl
  · cases hready.symm.trans hdelivers
  · cases ht.symm.trans h
    exact ⟨rfl, rfl, rfl, [s.req.fields], List.map_append⟩
  · cases ht.symm.trans h
    exact .of_same_requests rfl rfl rfl rfl
  · cases hvalid.symm.trans hfree

/-- No input but a reset takes a held response back or touches the order of the queue. -/
theorem applyInput_holdsResponse {i : Input} (h : applyInput i s = .next t) (hvalid : s.rsp.valid = true)
    (hready : s.rsp.ready = false) (hreset : ∀ b, i ≠ .assertReset b) : HoldsResponse s t := by
  cases i with
  | engineTurn => exact engineTurn_holdsResponse h hvalid hready
  | storeByte a b =>
    cases h
    exact .of_same_requests rfl rfl rfl (markWindow_map_req ..)
  | memAnswer err =>
    cases h
    obtain ⟨p, hp⟩ := memAnswer_eq_withMemPort s err
    exact hp ▸ .of_same_requests rfl rfl rfl rfl
  | genAnswer =>
    cases h
    obtain ⟨p, hp⟩ := genAnswer_eq_withGen s _ _
    exact hp ▸ .of_same_requests rfl rfl rfl rfl
  | genAnswerWith ok v =>
    cases h
    obtain ⟨p, hp⟩ := genAnswer_eq_withGen s ok v
    exact hp ▸ .of_same_requests rfl rfl rfl rfl
  | assertReset together => exact absurd rfl (hreset together)
  | _ =>
    cases h
    exact .of_same_requests rfl rfl rfl rfl

/-- Settles O45: neither the engine's turn nor an input other than a reset gives up a held response. -/
theorem responseIsHeldUntilTheRequesterIsReady : Obligations.ResponseIsHeldUntilTheRequesterIsReady := by
  intro s t hstep hvalid hready hreset
  have hholds : HoldsResponse s t := by
    obtain ⟨-, hs⟩ | ⟨i, rest, hinputs, hs⟩ := step_cases s <;> rw [hs] at hstep
    · exact engineTurn_holdsResponse hstep hvalid hready
    · have hhead : s.inputs.head? = some i := by rw [hinputs, List.head?_cons]
      obtain ⟨hv, hdata, hreceived, hqueue⟩ := applyInput_holdsResponse (s := s.withInputs rest) hstep hvalid hready
        fun b hi => hreset b (hi ▸ hhead)
      exact ⟨hv, hdata, hreceived, hqueue⟩
  exact ⟨hholds.valid.trans hvalid, hholds.data, hholds.received, hholds.queue⟩

end Sys2Proof.Machine

/-! Reset: what is in flight is dropped, nothing is accepted while it is asserted, and what the other agents still answer afterwards
is discarded (70_reset_and_hazards.md R190, R191). -/

namespace Sys2Proof.Machine

variable {s t : State}

/-- While reset is asserted the engine does not move (R190). -/
theorem engineTurn_of_inReset (hreset : s.inReset = true) : engineTurn s = .next s := if_pos hreset

/-- With nothing to transfer and nothing in flight the engine drives `req_ready` alone. -/
theorem engineTurn_of_idle (hreset : s.inReset = false) (hrsp : s.rsp.valid = false) (hready : s.req.ready = false)
    (hq : s.q = []) : engineTurn s = .next s.driveReady := by
  simp [engineTurn, hreset, hrsp, hready, hq]

/-- While reset is asserted no input fills the queue or delivers a response. -/
theorem applyInput_of_inReset {i : Input} (h : applyInput i s = .next t) (hreset : s.inReset = true) (hq : s.q = []) :
    t.q = [] ∧ t.received = s.received := by
  cases i with
  | engineTurn =>
    cases (engineTurn_of_inReset hreset).symm.trans h
    exact ⟨hq, rfl⟩
  | storeByte a b =>
    cases h
    exact ⟨congrArg (markWindow s.cfg.addrW _) hq, rfl⟩
  | memAnswer err =>
    cases h
    obtain ⟨p, hp⟩ := memAnswer_eq_withMemPort s err
    exact hp ▸ ⟨hq, rfl⟩
  | genAnswer =>
    cases h
    obtain ⟨p, hp⟩ := genAnswer_eq_withGen s _ _
    exact hp ▸ ⟨hq, rfl⟩
  | genAnswerWith ok v =>
    cases h
    obtain ⟨p, hp⟩ := genAnswer_eq_withGen s ok v
    exact hp ▸ ⟨hq, rfl⟩
  | assertReset together =>
    cases h
    exact ⟨rfl, rfl⟩
  | _ =>
    cases h
    exact ⟨hq, rfl⟩

/-- Settles O55: `assertReset` writes these values, an asserted reset stops the engine, and a released one lets it drive
`req_ready`, with room in its empty queue. -/
theorem resetDropsEverythingInFlight : Obligations.ResetDropsEverythingInFlight := by
  refine ⟨fun s b rest hinputs => ?_, fun s t hstep hreset hq => ?_, fun s hinputs hreset hq hrsp hready hdepth => ?_⟩
  · exact ⟨_, step_of_input hinputs, rfl, rfl, rfl, rfl, rfl, rfl, rfl⟩
  · obtain ⟨-, hs⟩ | ⟨i, rest, -, hs⟩ := step_cases s <;> rw [hs] at hstep
    · cases (engineTurn_of_inReset hreset).symm.trans hstep
      exact ⟨hq, rfl⟩
    · exact applyInput_of_inReset (s := s.withInputs rest) hstep hreset hq
  · refine ⟨_, (step_of_no_input hinputs).trans (engineTurn_of_idle hreset hrsp hready hq), State.hasRoom_iff.2 ?_⟩
    rw [hq]
    exact hdepth

/-- Settles O56: `onReset` counts what was outstanding, a stale answer lowers that count, and an answer to no outstanding read or
call is none. -/
theorem staleAnswersAreDiscarded : Obligations.StaleAnswersAreDiscarded := by
  refine ⟨fun s rest hinputs => ?_, fun s rest hinputs => ?_, fun s rest hinputs => ?_,
    fun s err rest hinputs hwait => ?_, fun s rest hinputs hwait => ?_, fun s ok v rest hinputs hwait => ?_⟩
  · exact ⟨_, step_of_input hinputs, rfl, rfl, rfl, rfl, rfl, rfl⟩
  · exact step_of_input hinputs
  · exact step_of_input hinputs
  · exact (step_of_input hinputs).trans
      (congrArg Host.Outcome.next (memAnswer_of_not_waiting (s := s.withInputs rest) hwait err))
  · exact (step_of_input hinputs).trans
      (congrArg Host.Outcome.next (genAnswer_of_not_waiting (s := s.withInputs rest) hwait _ _))
  · exact (step_of_input hinputs).trans
      (congrArg Host.Outcome.next (genAnswer_of_not_waiting (s := s.withInputs rest) hwait ok v))

end Sys2Proof.Machine
